-- ==== Sys2Proof/Word.lean ====
section
/-! DEFINITION. The words of the SK412's line and tables, and its two ports. -/

namespace Sys2Proof

/-- One byte of a line frame, a station address, a mask or a tag. -/
abbrev Byte := BitVec 8

/-- A 32-bit count: a statistics counter, a hit count, the commit count or an epoch. -/
abbrev Count := BitVec 32

/-- The two ports of the coupler; port P faces segment P (00_scope.md, 4). -/
inductive Port where
  | A
  | B
  deriving DecidableEq, Repr

/-- The other port (00_scope.md, 4: of port A, port B; of port B, port A). -/
def Port.other : Port → Port
  | .A => .B
  | .B => .A

end Sys2Proof
end

