-- ==== Sys2Proof/Syntax.lean ====
section
/-! DEFINITION. The commands the block takes: one constructor for each row of spec/opcode_table.json.

Every row but POWER_ON_RESET carries `dt`, the microseconds that pass between the command before it and
this one (log entry 1): the block's clock is advanced by `dt` first, and the event is then taken whole. -/

namespace Sys2Proof

/-- What a port reads on its line from one start bit on (R80, R95): a byte of ten bit times, its stop bit
at the idle level or not, or activity that assembles no byte, lasting `bits` bit times. -/
inductive Activity where
  | byte (value : Byte) (stopOk : Bool)
  | noise (bits : Nat)
  deriving DecidableEq, Repr

/-- The levels of the strap pins sampled at the end of power-on reset (R183). -/
structure Straps where
  oaA : BitVec 5
  oaB : BitVec 5
  rateA : BitVec 2
  rateB : BitVec 2
  deriving DecidableEq, Repr

/-- The commands: events of the ports, of the timers and of the agent, in the table's order. `p` is the
port the event happens at. The agent's rows name no arguments: the agent reads them from the request at
the head of its queue (R138). `enrolEn` is the level of pin ENROL_EN at the execution event (R184). -/
inductive Instr where
  | powerOnReset (straps : Straps)
  | frameEnd (dt : Nat) (p : Port)
  | replyGapReached (dt : Nat) (p : Port)
  | replySent (dt : Nat) (p : Port)
  | replyCollision (dt : Nat) (p : Port) (k : Nat)
  | replyAbandoned (dt : Nat) (p : Port)
  | selection (dt : Nat) (p : Port)
  | gapReached (dt : Nat) (p : Port)
  | deferExhausted (dt : Nat) (p : Port)
  | sendComplete (dt : Nat) (p : Port)
  | collision (dt : Nat) (p : Port) (k : Nat)
  | backoffEnd (dt : Nat) (p : Port)
  | noReply (dt : Nat) (p : Port)
  | busyHoldEnd (dt : Nat) (p : Port)
  | fenced (dt : Nat) (p : Port)
  | meterRefill (dt : Nat) (m : Fin 16)
  | leaseLapse (dt : Nat)
  | fenceTimeout (dt : Nat)
  | identify (dt : Nat)
  | enrol (dt : Nat) (enrolEn : Bool)
  | dismiss (dt : Nat) (enrolEn : Bool)
  | openEdit (dt : Nat)
  | writeRule (dt : Nat)
  | writeProfile (dt : Nat)
  | commit (dt : Nat)
  | abandon (dt : Nat)
  | readRule (dt : Nat)
  | readProfile (dt : Nat)
  | readHits (dt : Nat)
  | setMeter (dt : Nat)
  | readMeter (dt : Nat)
  | setPort (dt : Nat)
  | readPort (dt : Nat)
  | readCounters (dt : Nat)
  | readStore (dt : Nat)
  | restartPort (dt : Nat)
  | restart (dt : Nat)
  | unknownCommand (dt : Nat)
  | byteReceived (dt : Nat) (p : Port) (act : Activity)
  deriving DecidableEq, Repr

end Sys2Proof
end

