-- ==== Sys2Proof/Decode.lean ====
section
/-! DEFINITION. The opcode table gives no row any bits (spec/98_reader.md: n_rows_with_fixed 0,
n_rows_with_fields 0), so no word spells a command. Line frames and management records have byte layouts;
they are decoded in Machine/Operands.lean, inside the events that read them. -/

namespace Sys2Proof

/-- The command a word of the table spells: none, since no row of the table gives bits. -/
def decodeTableWord (_nbits _w : Nat) : Option Instr := none

end Sys2Proof
end

