-- ==== Sys2Proof/Config.lean ====
section
/-! DEFINITION. The figures the manual fixes for the SK412. The manual leaves no value open that an
implementation would choose, so there is no opaque constant here (log entry 12). -/

namespace Sys2Proof.Config

/-- R58: slots of the frame store. -/
def slotCount : Nat := 32
/-- R64: data-origin slots never number more than this. -/
def dataCap : Nat := 30
/-- R65: management-origin slots never number more than this. -/
def mgmtCap : Nat := 6
/-- R62: requests the agent queue holds at most. -/
def agentQueueCap : Nat := 4
/-- R134: entries of the manager table. -/
def managerCap : Nat := 6
/-- R12: entries a path holds at most. -/
def pathCap : Nat := 4
/-- R80: idle time, in bit times, at which a frame ends. -/
def frameEndGap : Nat := 3
/-- R82: the fixed reply gap in bit times. -/
def replyGap : Nat := 10
/-- R80: bit times of one byte on the line. -/
def bitsPerByte : Nat := 10
/-- R95: bytes the assembly buffer holds. -/
def bufferBytes : Nat := 247
/-- R77: the longest payload. -/
def payloadMax : Nat := 240
/-- R77: header and check bytes of every frame. -/
def frameOverhead : Nat := 7
/-- R3, R171: the ceiling of a hit count and of a counter. -/
def countMax : Nat := 4294967295
/-- R92: microseconds in one millisecond of coupler time. -/
def microsPerMilli : Nat := 1000
/-- R151: vendor code, part code and silicon revision (11_formats_and_encodings.md, result layouts). -/
def vendorCode : Nat := 3127
def partCode : Nat := 412
/-- Log entry 13: the layout's "silicon revision 1" is read as one byte holding 1. -/
def revisionCode : Byte := 1

end Sys2Proof.Config
end

