-- ==== Sys2Proof/Machine/Types.lean ====
section
/-! DEFINITION. The records the blocks of the SK412 hold: frames, rule entries, profiles, meters, slots,
manager entries and the two paths of a port. Plain data; Machine/State.lean puts them together. -/

namespace Sys2Proof.Machine

/-- R77, R78: the types of a line frame. -/
inductive FrameType where
  | data
  | mgmt
  | ack
  | busy
  | refuse
  | undelivered
  deriving DecidableEq, Repr

/-- R77: a line frame by its fields, without its check. The length field is the payload's length and the
header's zero bits are zero, as R179 has every frame in a slot. -/
structure Frame where
  dst : Byte
  src : Byte
  type : FrameType
  urgent : Bool
  seq : BitVec 4
  cls : BitVec 3
  payload : List Byte
  deriving DecidableEq, Repr

/-- R78: the reply types. -/
inductive ReplyType where
  | ack
  | busy
  | refuse
  deriving DecidableEq, Repr

/-- R105: what a reply obligation holds. -/
structure Reply where
  type : ReplyType
  dst : Byte
  src : Byte
  seq : BitVec 4
  deriving DecidableEq, Repr

/-- R90: the rates; the code 11 of the straps is the third one again. -/
inductive Rate where
  | k62
  | k250
  | k1000
  deriving DecidableEq, Repr

/-! ### Rule entries and profiles (01_the_rule_set_and_the_walk.md) -/

inductive Ingress where
  | A
  | B
  | either
  deriving DecidableEq, Repr

inductive OneShot where
  | none
  | armed
  | spent
  deriving DecidableEq, Repr

inductive Chain where
  | stop
  | continue
  deriving DecidableEq, Repr

/-- R1: the type set, a subset of DATA, MGMT and UNDELIVERED. -/
structure TypeSet where
  data : Bool
  mgmt : Bool
  undelivered : Bool
  deriving DecidableEq, Repr

/-- R2: a match field. -/
structure MatchField where
  value : Byte
  mask : Byte
  deriving DecidableEq, Repr

/-- R1: the source rewrite. -/
inductive SrcRewrite where
  | absent
  | fixed (value : Byte)
  | offset (k : Byte)
  deriving DecidableEq, Repr

/-- R1: a rule entry. Bit n of `classes` holds class n. -/
structure RuleEntry where
  valid : Bool
  ingress : Ingress
  types : TypeSet
  dst : MatchField
  src : MatchField
  classes : Byte
  oneShot : OneShot
  chain : Chain
  profile : Fin 32
  meter : Option (Fin 16)
  dstRewrite : Option Byte
  srcRewrite : SrcRewrite
  deriving DecidableEq, Repr

inductive Disposition where
  | forward
  | drop
  | dropRefuse
  deriving DecidableEq, Repr

inductive Egress where
  | other
  | same
  deriving DecidableEq, Repr

inductive QueueRule where
  | urgent
  | normal
  | asReceived
  deriving DecidableEq, Repr

inductive Policy where
  | drop
  | refuse
  | busy
  | demote
  deriving DecidableEq, Repr

/-- R5: an action profile. -/
structure Profile where
  disposition : Disposition
  egress : Egress
  queue : QueueRule
  policy : Policy
  notify : Bool
  clsRewrite : Option (BitVec 3)
  deriving DecidableEq, Repr

/-- R7: a bank: 128 rule entries, 32 profiles, 128 hit counts. -/
structure Bank where
  entries : Vector RuleEntry 128
  profiles : Vector Profile 32
  hits : Vector Count 128
  deriving DecidableEq, Repr

inductive BankName where
  | X
  | Y
  deriving DecidableEq, Repr

/-- R27, R28: a meter, with the coupler time at which its running interval started. -/
structure Meter where
  capacity : Nat
  refill : Nat
  interval : Nat
  tokens : Nat
  start : Nat
  deriving DecidableEq, Repr

/-! ### Slots (04_the_frame_store.md) -/

/-- R59: what a data-origin slot's buffer holds. -/
inductive DataKind where
  | forward
  | notice
  deriving DecidableEq, Repr

/-- R59: what a management-origin slot's buffer holds. -/
inductive MgmtKind where
  | request
  | response
  deriving DecidableEq, Repr

/-- R59: the restart trigger of a slot. -/
inductive Trigger where
  | none
  | restart
  | restartPort (p : Port)
  deriving DecidableEq, Repr

/-- R59: an egress queue of a port. -/
inductive QueueChoice where
  | urgent
  | normal
  deriving DecidableEq, Repr

/-- R59: the record of a data-origin slot. Its restart trigger is none by R59, so it has no field for it. -/
structure DataSlot where
  kind : DataKind
  frame : Frame
  ingress : Port
  origDst : Byte
  origSrc : Byte
  origCls : BitVec 3
  arrival : Nat
  epoch : Count
  egress : Port
  queue : QueueChoice
  notify : Bool
  mark : Bool
  deriving DecidableEq, Repr

/-- R59: the record of a management-origin slot. It never carries the abandon mark (R128). -/
structure MgmtSlot where
  kind : MgmtKind
  frame : Frame
  port : Port
  requester : Byte
  trigger : Trigger
  deriving DecidableEq, Repr

/-- A slot that is not free, by its origin (R59). -/
inductive Slot where
  | data (d : DataSlot)
  | mgmt (m : MgmtSlot)
  deriving DecidableEq, Repr

/-! ### Bank control and agent (03, 08) -/

/-- R40: an OPEN edit session; the deadline is a point of coupler time in milliseconds. -/
structure Session where
  port : Port
  addr : Byte
  leaseSecs : Nat
  deadline : Nat
  deriving DecidableEq, Repr

/-- R51: a pending fence, with the slot in the fence holder. -/
structure Fence where
  deadline : Nat
  holder : MgmtSlot
  deriving DecidableEq, Repr

inductive Right where
  | read
  | write
  deriving DecidableEq, Repr

/-- R134: a manager entry. The last tag and the cached response are written together, so they are one
field: a tag and a response record, or nothing. -/
structure Manager where
  port : Port
  addr : Byte
  right : Right
  pendingTag : Option Byte
  last : Option (Byte × List Byte)
  deriving DecidableEq, Repr

/-! ### The two paths of a port (05, 06, 07) -/

/-- R103: a duplicate-filter record. -/
structure FilterRecord where
  seq : BitVec 4
  time : Nat
  deriving DecidableEq, Repr

/-- R94: the receive states. The reply obligation is present in OWE-REPLY and REPLYING and nowhere else;
REPLYING also holds the clock at the start of the reply. -/
inductive RxState where
  | idle
  | receiving
  | oweReply (r : Reply)
  | replying (r : Reply) (start : Nat)
  deriving DecidableEq, Repr

/-- 06_receiving_and_replying.md: the state of a receive path. `inWait` says that the first start bit of
the frame being assembled was read within the transmit path's reply wait (R99); `holdOff` that assembly
waits for 3 bt of idle time (R95). -/
structure RxPath where
  state : RxState
  buffer : List Byte
  count : Nat
  framingFault : Bool
  inWait : Bool
  holdOff : Bool
  lastSent : Option Byte
  filter : Vector (Option FilterRecord) 255
  counters : Vector Count 18
  deriving DecidableEq, Repr

/-- R112: the transmit states, with the values each read when it was entered (R129). Gaps and waits are in
bit times, the defer timer and the busy hold in milliseconds of coupler time, the start of a send and the
end of a backoff in microseconds of the clock. SELECT is held only within the selection event. -/
inductive TxState where
  | idle
  | select
  | defer (gap start limit : Nat)
  | sending (window start : Nat)
  | backoff (ends : Nat)
  | awaitReply (wait : Nat)
  | busyHold (ends : Nat)
  deriving DecidableEq, Repr

/-- 07_transmitting.md: the state of a transmit path; `pos` is the port's transmit position (R63). -/
structure TxPath where
  state : TxState
  pos : Option Slot
  attempts : Nat
  collisions : Nat
  busies : Nat
  seqTable : Vector (BitVec 4) 255
  counters : Vector Count 17
  deriving DecidableEq, Repr

/-- R82, R129: the immediate parameters of a port, in force. -/
structure Params where
  replyWait : Nat
  urgentGap : Nat
  normalGap : Nat
  window : Nat
  retryLimit : Nat
  ladder : Vector Byte 8
  busyLimit : Nat
  busyHold : Nat
  deferLimit : Nat
  ageLimit : Nat
  dupWindow : Nat
  deriving DecidableEq, Repr

/-- R130: the parameters that are staged. -/
structure Settings where
  rate : Rate
  own : Byte
  queueLimit : Nat
  deriving DecidableEq, Repr

/-- One port: its paths, its egress queues, its parameters, the clock at the end of the last activity on its
line (R80), of other stations or of a send that is over, which lies ahead of the clock while activity lasts, and,
while it drives its line, the byte it is sending in which a collision has shown, if one has (R86). What the port
itself is sending counts as activity through `State.lineEnd`. -/
structure PortState where
  rx : RxPath
  tx : TxPath
  urgent : List Slot
  normal : List Slot
  params : Params
  inForce : Settings
  staged : Settings
  idleSince : Nat
  clash : Option Nat
  deriving DecidableEq, Repr

/-- 12_signals_and_operating_conditions.md: the input pins that are levels. -/
structure Pins where
  straps : Straps
  enrolEn : Bool
  deriving DecidableEq, Repr

end Sys2Proof.Machine
end

