-- ==== Sys2Proof/Machine/PowerOn.lean ====
section
/-! DEFINITION. The values the blocks take at power-on reset, each as its chapter gives it. -/

namespace Sys2Proof.Machine

/-- R8: every rule entry after power-on reset, and after OPEN-EDIT with EMPTY. -/
def powerOnEntry : RuleEntry where
  valid := false
  ingress := .either
  types := ⟨true, false, false⟩
  dst := ⟨0, 0⟩
  src := ⟨0, 0⟩
  classes := 255
  oneShot := .none
  chain := .stop
  profile := 0
  meter := none
  dstRewrite := none
  srcRewrite := .absent

/-- R8: every action profile after power-on reset. -/
def powerOnProfile : Profile where
  disposition := .drop
  egress := .other
  queue := .asReceived
  policy := .drop
  notify := false
  clsRewrite := none

/-- R8, R176: a bank at its power-on values. -/
def powerOnBank : Bank where
  entries := Vector.replicate 128 powerOnEntry
  profiles := Vector.replicate 32 powerOnProfile
  hits := Vector.replicate 128 0

/-- R29: a meter after power-on reset, its first interval started at the end of the reset. -/
def powerOnMeter : Meter := ⟨0, 0, 100, 0, 0⟩

/-- R82, R129. -/
def powerOnParams : Params where
  replyWait := 40
  urgentGap := 56
  normalGap := 72
  window := 12
  retryLimit := 7
  ladder := #v[1, 2, 4, 8, 16, 32, 64, 128]
  busyLimit := 4
  busyHold := 5
  deferLimit := 100
  ageLimit := 1000
  dupWindow := 2000

/-- R90: strap value 00 is 62.5 kbit/s, 01 is 250 kbit/s, 10 and 11 are 1000 kbit/s. -/
def strapRate (r : BitVec 2) : Rate :=
  if r = 0 then .k62 else if r = 1 then .k250 else .k1000

/-- R91: 224 plus the strap value, where 31 gives 254. -/
def strapAddress (a : BitVec 5) : Byte :=
  if a = 31 then 254 else BitVec.ofNat 8 (224 + a.toNat)

/-- R90, R91, R130: rate and own address from the straps, queue limit 24. -/
def strapSettings (a : BitVec 5) (r : BitVec 2) : Settings := ⟨strapRate r, strapAddress a, 24⟩

/-- R94, R111: a receive path after power-on reset. That it waits for no idle time before it assembles, so that the
rest of a frame still arriving begins a frame, is the model's choice (log entry 16). -/
def powerOnRx : RxPath where
  state := .idle
  buffer := []
  count := 0
  framingFault := false
  inWait := false
  holdOff := false
  lastSent := none
  filter := Vector.replicate 255 none
  counters := Vector.replicate 18 0

/-- R131: a transmit path after power-on reset. -/
def powerOnTx : TxPath where
  state := .idle
  pos := none
  attempts := 0
  collisions := 0
  busies := 0
  seqTable := Vector.replicate 255 0
  counters := Vector.replicate 17 0

/-- A port after power-on reset, with rate and own address from its straps (R90, R91). The line counts as
idle from the end of the reset (log entry 5). -/
def powerOnPort (a : BitVec 5) (r : BitVec 2) : PortState where
  rx := powerOnRx
  tx := powerOnTx
  urgent := []
  normal := []
  params := powerOnParams
  inForce := strapSettings a r
  staged := strapSettings a r
  idleSince := 0
  clash := none

/-- Log entry 3: the strap levels of the state after reset. -/
def resetStraps : Straps := ⟨0, 0, 0, 0⟩

end Sys2Proof.Machine
end

