-- ==== Sys2Proof/Machine/State.lean ====
section
/-! DEFINITION. The state of the SK412: every table, queue, register and pin of 00_scope.md, section 3, and
the queue of commands that wait. -/

namespace Sys2Proof.Machine

/-- The whole block. `clock` counts microseconds from the end of power-on reset (R92, R183); `pending` is
the queue of commands, first in, first out. -/
structure State where
  clock : Nat
  pins : Pins
  portA : PortState
  portB : PortState
  bankX : Bank
  bankY : Bank
  active : BankName
  commitCount : Count
  session : Option Session
  fence : Option Fence
  meters : Vector Meter 16
  agentQueue : List MgmtSlot
  managers : List Manager
  restartPending : Nat
  agentCounters : Vector Count 11
  pending : List Instr
  deriving DecidableEq, Repr

/-- The manual names no condition that stops the part (INVENTORY.md, Faults), so no step faults. -/
inductive Fault where
  deriving DecidableEq, Repr

/-- Why a command has no meaning. -/
inductive Refusal where
  /-- Raised by an arm of exec whose command has no meaning yet; safe, since the machine stops. No arm of
  this model raises it. -/
  | notModelled (mnemonic : String)
  deriving DecidableEq, Repr

/-- R183: the block at the end of power-on reset, with the levels its pins have then. -/
def State.powerOn (pins : Pins) : State where
  clock := 0
  pins := pins
  portA := powerOnPort pins.straps.oaA pins.straps.rateA
  portB := powerOnPort pins.straps.oaB pins.straps.rateB
  bankX := powerOnBank
  bankY := powerOnBank
  active := .X
  commitCount := 0
  session := none
  fence := none
  meters := Vector.replicate 16 powerOnMeter
  agentQueue := []
  managers := []
  restartPending := 0
  agentCounters := Vector.replicate 11 0
  pending := []

/-- The machine right after reset, with straps 0 and ENROL_EN low (log entry 3). -/
def State.reset : State := State.powerOn ⟨resetStraps, false⟩

end Sys2Proof.Machine
end

