-- ==== Sys2Proof/Machine/Flags.lean ====
section
/-! DEFINITION. The counter block (10_counters_and_hit_counts.md), the access to a port's state, the clock,
and the output pins. -/

namespace Sys2Proof.Machine

/-! ### A port's state -/

/-- The state of port `p`. -/
def State.port (s : State) : Port → PortState
  | .A => s.portA
  | .B => s.portB

/-- Changes the state of port `p` alone. -/
def State.modPort (s : State) (p : Port) (f : PortState → PortState) : State :=
  match p with
  | .A => { s with portA := f s.portA }
  | .B => { s with portB := f s.portB }

/-- Changes the receive path of port `p` alone. -/
def State.modRx (s : State) (p : Port) (f : RxPath → RxPath) : State :=
  s.modPort p fun x => { x with rx := f x.rx }

/-- Changes the transmit path of port `p` alone. -/
def State.modTx (s : State) (p : Port) (f : TxPath → TxPath) : State :=
  s.modPort p fun x => { x with tx := f x.tx }

/-! ### Time (R80, R90, R92) -/

/-- Time passes before an event: the clock advances by `dt` microseconds. -/
def State.elapse (s : State) (dt : Nat) : State := { s with clock := s.clock + dt }

/-- R92: coupler time, in milliseconds since the end of power-on reset. -/
def State.now (s : State) : Nat := s.clock / Config.microsPerMilli

/-- R90: the bit time of a rate in microseconds. -/
def Rate.bitTime : Rate → Nat
  | .k62 => 16
  | .k250 => 4
  | .k1000 => 1

/-- The bit time of port `p` at its rate in force (00_scope.md, 4). -/
def State.bitTime (s : State) (p : Port) : Nat := (s.port p).inForce.rate.bitTime

/-! ### Counters (R171, R172) -/

/-- R3, R172: a count raised `n` times; at its ceiling it stays there. -/
def satAdd (c : Count) (n : Nat) : Count := BitVec.ofNat 32 (min (c.toNat + n) Config.countMax)

/-- R171: the receive group, in its order. -/
inductive RxCounter where
  | rxGood
  | checkError
  | lengthError
  | formatError
  | addressConflict
  | ownData
  | strayReply
  | takenForward
  | takenAgent
  | notTaken
  | refusedSent
  | busySent
  | duplicate
  | overBudget
  | chainOverrun
  | rewriteFault
  | broadcastNoRoom
  | replyLost
  deriving DecidableEq, Repr

/-- R171: the counter's place in the group's order, counted from 0. -/
def RxCounter.index : RxCounter → Fin 18
  | .rxGood => 0
  | .checkError => 1
  | .lengthError => 2
  | .formatError => 3
  | .addressConflict => 4
  | .ownData => 5
  | .strayReply => 6
  | .takenForward => 7
  | .takenAgent => 8
  | .notTaken => 9
  | .refusedSent => 10
  | .busySent => 11
  | .duplicate => 12
  | .overBudget => 13
  | .chainOverrun => 14
  | .rewriteFault => 15
  | .broadcastNoRoom => 16
  | .replyLost => 17

/-- R171: the transmit group, in its order. -/
inductive TxCounter where
  | delivered
  | broadcastSent
  | singleCollision
  | multiCollision
  | collisions
  | lateCollision
  | retryExhausted
  | noReply
  | busyReceived
  | busyExhausted
  | refusedReceived
  | deferExhausted
  | aged
  | fenced
  | flushed
  | noticesMade
  | noticesDropped
  deriving DecidableEq, Repr

def TxCounter.index : TxCounter → Fin 17
  | .delivered => 0
  | .broadcastSent => 1
  | .singleCollision => 2
  | .multiCollision => 3
  | .collisions => 4
  | .lateCollision => 5
  | .retryExhausted => 6
  | .noReply => 7
  | .busyReceived => 8
  | .busyExhausted => 9
  | .refusedReceived => 10
  | .deferExhausted => 11
  | .aged => 12
  | .fenced => 13
  | .flushed => 14
  | .noticesMade => 15
  | .noticesDropped => 16

/-- R171: the agent group, in its order. -/
inductive AgentCounter where
  | requestsTaken
  | agentBusy
  | replays
  | duplicatePending
  | notManager
  | noRight
  | commits
  | fenceTimeouts
  | leaseLapsed
  | restarts
  | portRestarts
  deriving DecidableEq, Repr

def AgentCounter.index : AgentCounter → Fin 11
  | .requestsTaken => 0
  | .agentBusy => 1
  | .replays => 2
  | .duplicatePending => 3
  | .notManager => 4
  | .noRight => 5
  | .commits => 6
  | .fenceTimeouts => 7
  | .leaseLapsed => 8
  | .restarts => 9
  | .portRestarts => 10

/-- R172: a group with counter `i` raised `n` times, the others as they stand. -/
def raiseAt {k : Nat} (v : Vector Count k) (i : Fin k) (n : Nat) : Vector Count k :=
  v.set i (satAdd v[i] n)

/-- Raises a receive counter of port `p` by 1. -/
def State.raiseRx (s : State) (p : Port) (c : RxCounter) : State :=
  s.modRx p fun x => { x with counters := raiseAt x.counters c.index 1 }

/-- Raises a transmit counter of port `p` by `n`: 1, or the slots flushed in one event (R171). -/
def State.raiseTxBy (s : State) (p : Port) (c : TxCounter) (n : Nat) : State :=
  s.modTx p fun x => { x with counters := raiseAt x.counters c.index n }

/-- Raises a transmit counter of port `p` by 1. -/
def State.raiseTx (s : State) (p : Port) (c : TxCounter) : State := s.raiseTxBy p c 1

/-- Raises an agent counter by 1. -/
def State.raiseAgent (s : State) (c : AgentCounter) : State :=
  { s with agentCounters := raiseAt s.agentCounters c.index 1 }

/-! ### The drivers (R109, signals) -/

/-- The transmit path is sending its frame. -/
def TxState.isSending : TxState → Bool
  | .sending _ _ => true
  | _ => false

/-- The receive path is sending its reply. -/
def RxState.isReplying : RxState → Bool
  | .replying _ _ => true
  | _ => false

/-- The receive path owes a reply: OWE-REPLY or REPLYING (R94). -/
def RxState.owesReply : RxState → Bool
  | .oweReply _ => true
  | .replying _ _ => true
  | _ => false

/-- 12: DE_P is high exactly while the receive path or the transmit path of the port sends on its line. -/
def State.driverEnable (s : State) (p : Port) : Bool :=
  (s.port p).tx.state.isSending || (s.port p).rx.state.isReplying

end Sys2Proof.Machine
end

