-- ==== Sys2Proof/Machine/Operands.lean ====
section
/-! DEFINITION. The byte layouts of 11_formats_and_encodings.md: line frames and their check, management
records, rule entries, profiles and parameter blocks. -/

namespace Sys2Proof.Machine

/-! ### Bytes and multi-byte fields -/

/-- Byte `i` of a record, 0 where the record has none. -/
def byteAt (b : List Byte) (i : Nat) : Byte := b.getD i 0

/-- Bits `lo` to `lo + len - 1` of a byte, as a number. -/
def bitsOf (b : Byte) (lo len : Nat) : Nat := b.toNat / 2 ^ lo % 2 ^ len

/-- Two bytes, high byte first (11: a multi-byte field is sent high byte first). -/
def be16At (b : List Byte) (i : Nat) : Nat := (byteAt b i).toNat * 256 + (byteAt b (i + 1)).toNat

def be16 (n : Nat) : List Byte := [BitVec.ofNat 8 (n / 256), BitVec.ofNat 8 n]

def be32 (c : Count) : List Byte :=
  [BitVec.ofNat 8 (c.toNat / 16777216), BitVec.ofNat 8 (c.toNat / 65536), BitVec.ofNat 8 (c.toNat / 256),
    BitVec.ofNat 8 c.toNat]

/-! ### The check (R79) -/

/-- One bit through the register of the generator x^16 + x^12 + x^5 + 1. -/
def crcBit (r : BitVec 16) (b : Bool) : BitVec 16 :=
  if r.msb != b then (r <<< 1) ^^^ 0x1021#16 else r <<< 1

/-- R79: each byte entered high-order bit first. -/
def crcByte (r : BitVec 16) (v : Byte) : BitVec 16 :=
  [7, 6, 5, 4, 3, 2, 1, 0].foldl (fun acc i => crcBit acc (v.getLsbD i)) r

/-- R79: the check over header and payload, from a register of all ones, without inversion. -/
def crc (bytes : List Byte) : BitVec 16 := bytes.foldl crcByte 0xFFFF#16

/-- R79: the check as sent, high byte first. -/
def checkBytes (bytes : List Byte) : List Byte := be16 (crc bytes).toNat

/-! ### Line frames (R77, R179) -/

/-- The type codes of the kind byte. -/
def FrameType.code : FrameType → Nat
  | .data => 1
  | .mgmt => 2
  | .ack => 3
  | .busy => 4
  | .refuse => 5
  | .undelivered => 6

/-- R179: the type a type code names; 0 and 7 name none. -/
def FrameType.ofCode : Nat → Option FrameType
  | 1 => some .data
  | 2 => some .mgmt
  | 3 => some .ack
  | 4 => some .busy
  | 5 => some .refuse
  | 6 => some .undelivered
  | _ => none

def FrameType.isReply : FrameType → Bool
  | .ack | .busy | .refuse => true
  | .data | .mgmt | .undelivered => false

def FrameType.reply : FrameType → Option ReplyType
  | .ack => some .ack
  | .busy => some .busy
  | .refuse => some .refuse
  | .data | .mgmt | .undelivered => none

def ReplyType.frameType : ReplyType → FrameType
  | .ack => .ack
  | .busy => .busy
  | .refuse => .refuse

/-- The kind byte: type code in bits 7 to 5, urgent in bit 4, sequence in bits 3 to 0. -/
def kindByte (t : FrameType) (urgent : Bool) (seq : BitVec 4) : Byte :=
  BitVec.ofNat 8 (t.code * 32 + (if urgent then 16 else 0) + seq.toNat)

/-- The five header bytes. -/
def Frame.header (f : Frame) : List Byte :=
  [f.dst, f.src, kindByte f.type f.urgent f.seq, BitVec.ofNat 8 f.cls.toNat, BitVec.ofNat 8 f.payload.length]

/-- R59, R179: the frame as a slot's buffer holds it, without its check. -/
def Frame.stored (f : Frame) : List Byte := f.header ++ f.payload

/-- R179: the frame as it is sent on the line, its check at the end. -/
def Frame.onLine (f : Frame) : List Byte := f.stored ++ checkBytes f.stored

/-- R77: the length of the frame on the line in bytes. -/
def Frame.lineLength (f : Frame) : Nat := Config.frameOverhead + f.payload.length

/-- R78: a frame whose destination is 255 is broadcast. -/
def Frame.isBroadcast (f : Frame) : Bool := f.dst == 255

/-- R78, R105: the frame of a reply: urgent no, class 0, no payload. -/
def Reply.frame (r : Reply) : Frame := ⟨r.dst, r.src, r.type.frameType, false, r.seq, 0, []⟩

/-- R96: what screening makes of an assembled frame: the counter of the first test that fails, or the frame. -/
inductive Screened where
  | failed (c : RxCounter)
  | good (f : Frame)
  deriving DecidableEq, Repr

/-- R96, R179: the tests after the shape test, on the bytes of a frame of at least 7 bytes. `own` is the
port's own address in force. -/
def screenBytes (own : Byte) (b : List Byte) : Screened :=
  let body := b.take (b.length - 2)
  let len := (byteAt b 4).toNat
  if checkBytes body ≠ b.drop (b.length - 2) then .failed .checkError
  else if b.length ≠ Config.frameOverhead + len ∨ Config.payloadMax < len then .failed .lengthError
  else
    match FrameType.ofCode (bitsOf (byteAt b 2) 5 3) with
    | none => .failed .formatError
    | some t =>
      if bitsOf (byteAt b 3) 3 5 ≠ 0 ∨ (byteAt b 0 = 255 ∧ t ≠ .data) ∨ (t.isReply = true ∧ len ≠ 0) then
        .failed .formatError
      else if byteAt b 1 = 255 ∨ byteAt b 1 = own then .failed .addressConflict
      else
        .good
          { dst := byteAt b 0
            src := byteAt b 1
            type := t
            urgent := bitsOf (byteAt b 2) 4 1 == 1
            seq := BitVec.ofNat 4 (byteAt b 2).toNat
            cls := BitVec.ofNat 3 (byteAt b 3).toNat
            payload := body.drop 5 }

/-- R96: the five tests in their order on what a receive path has assembled. The buffer holds every byte
counted when the shape test passes (R95). -/
def screen (own : Byte) (buffer : List Byte) (count : Nat) (framingFault : Bool) : Screened :=
  if count < Config.frameOverhead ∨ Config.bufferBytes < count ∨ framingFault = true then .failed .lengthError
  else screenBytes own buffer

/-- R80: what is on a line during one bit time. `idle` and `stop` are both at the idle level. How the transceiver
represents a bit on the wire is out of scope (00_scope.md, section 2). -/
inductive LineBit where
  | idle
  | start
  | data (bit : Bool)
  | stop
  deriving DecidableEq, Repr

/-- R80: the bits of a byte in the order they are on the line: a start bit, eight data bits, low-order bit first,
and a stop bit. -/
def byteBits (v : Byte) : List LineBit :=
  .start :: ([0, 1, 2, 3, 4, 5, 6, 7].map fun i => .data (v.getLsbD i)) ++ [.stop]

/-- R80: the bits of a run of bytes, which a sender sends back to back. -/
def lineBits (bytes : List Byte) : List LineBit := bytes.flatMap byteBits

/-- 12, R109: the bytes a port is driving onto its line: its frame, or its reply; none while its driver is
off and TXD is at the idle level. -/
def State.driven (s : State) (p : Port) : List Byte :=
  match (s.port p).tx.state, (s.port p).tx.pos, (s.port p).rx.state with
  | .sending _ _, some (.data d), _ => d.frame.onLine
  | .sending _ _, some (.mgmt m), _ => m.frame.onLine
  | _, _, .replying r _ => r.frame.onLine
  | _, _, _ => []

/-! ### Undelivered notice record (R126) -/

/-- R70, R126: the failure outcomes, which are the reasons of a notice. -/
inductive Failure where
  | aged
  | deferExhausted
  | retryExhausted
  | lateCollision
  | busyExhausted
  | refused
  deriving DecidableEq, Repr

def Failure.code : Failure → Byte
  | .aged => 1
  | .deferExhausted => 2
  | .retryExhausted => 3
  | .lateCollision => 4
  | .busyExhausted => 5
  | .refused => 6

/-- 11.1: original destination, original class, reason, attempts. -/
def noticeRecord (origDst : Byte) (origCls : BitVec 3) (r : Failure) (attempts : Nat) : List Byte :=
  [origDst, BitVec.ofNat 8 origCls.toNat, r.code, BitVec.ofNat 8 attempts]

/-! ### Management records (R180) -/

/-- The commands of the agent. -/
inductive Command where
  | identify
  | enrol
  | dismiss
  | openEdit
  | writeRule
  | writeProfile
  | commit
  | abandon
  | readRule
  | readProfile
  | readHits
  | setMeter
  | readMeter
  | setPort
  | readPort
  | readCounters
  | readStore
  | restartPort
  | restart
  deriving DecidableEq, Repr

/-- 11.2: the command a code names; 0 and 20 to 255 name none. -/
def Command.ofCode (c : Byte) : Option Command :=
  match c.toNat with
  | 1 => some .identify
  | 2 => some .enrol
  | 3 => some .dismiss
  | 4 => some .openEdit
  | 5 => some .writeRule
  | 6 => some .writeProfile
  | 7 => some .commit
  | 8 => some .abandon
  | 9 => some .readRule
  | 10 => some .readProfile
  | 11 => some .readHits
  | 12 => some .setMeter
  | 13 => some .readMeter
  | 14 => some .setPort
  | 15 => some .readPort
  | 16 => some .readCounters
  | 17 => some .readStore
  | 18 => some .restartPort
  | 19 => some .restart
  | _ => none

/-- 11.2: the argument bytes of each command. -/
def Command.argBytes : Command → Nat
  | .identify => 0
  | .enrol => 3
  | .dismiss => 2
  | .openEdit => 2
  | .writeRule => 13
  | .writeProfile => 5
  | .commit => 3
  | .abandon => 0
  | .readRule => 3
  | .readProfile => 3
  | .readHits => 4
  | .setMeter => 7
  | .readMeter => 2
  | .setPort => 27
  | .readPort => 1
  | .readCounters => 2
  | .readStore => 0
  | .restartPort => 1
  | .restart => 0

/-- 11.2: the statuses. -/
inductive Status where
  | ok
  | notManager
  | noRight
  | noSession
  | sessionHeld
  | fencePending
  | fenceTimeout
  | badIndex
  | badArgument
  | notFound
  | lastManager
  | tableFull
  | badLength
  | unknownCommand
  deriving DecidableEq, Repr

def Status.code : Status → Byte
  | .ok => 0
  | .notManager => 1
  | .noRight => 2
  | .noSession => 3
  | .sessionHeld => 4
  | .fencePending => 5
  | .fenceTimeout => 6
  | .badIndex => 7
  | .badArgument => 8
  | .notFound => 9
  | .lastManager => 10
  | .tableFull => 11
  | .badLength => 12
  | .unknownCommand => 13

/-- R100, R180: the tag of a request, 0 when its payload holds none. -/
def Frame.tag (f : Frame) : Byte := byteAt f.payload 0

def MgmtSlot.tag (m : MgmtSlot) : Byte := m.frame.tag

/-- R180: the command code as received, 0 when the request carried none. -/
def MgmtSlot.code (m : MgmtSlot) : Byte := byteAt m.frame.payload 1

/-- R180: the argument bytes. -/
def MgmtSlot.args (m : MgmtSlot) : List Byte := m.frame.payload.drop 2

/-- R139, steps 2 and 3: the command a request names, none when its payload is too short for its header or
its code names no command. -/
def MgmtSlot.command (m : MgmtSlot) : Option Command :=
  if m.frame.payload.length < 2 then none else Command.ofCode m.code

/-- 11.2: a response record. -/
def responseRecord (tag code : Byte) (st : Status) (result : List Byte) : List Byte :=
  [tag, code, st.code, BitVec.ofNat 8 result.length] ++ result

/-! ### Selector codes (11.3) -/

def portCode : Port → Byte
  | .A => 0
  | .B => 1

def portOfCode (c : Byte) : Option Port := if c = 0 then some .A else if c = 1 then some .B else none

def Right.code : Right → Byte
  | .read => 1
  | .write => 2

def Right.ofCode (c : Byte) : Option Right := if c = 1 then some .read else if c = 2 then some .write else none

def BankName.code : BankName → Byte
  | .X => 0
  | .Y => 1

def Rate.code : Rate → Byte
  | .k62 => 0
  | .k250 => 1
  | .k1000 => 2

def Rate.ofCode (c : Byte) : Option Rate :=
  if c = 0 then some .k62 else if c = 1 then some .k250 else if c = 2 then some .k1000 else none

/-- A flag byte: 0 no, 1 yes. -/
def flagOfCode (c : Byte) : Option Bool := if c = 0 then some false else if c = 1 then some true else none

def flagCode (b : Bool) : Byte := if b then 1 else 0

/-- R41, R42: the start modes of OPEN-EDIT. -/
inductive StartMode where
  | keep
  | copy
  | empty
  deriving DecidableEq, Repr

def StartMode.ofCode (c : Byte) : Option StartMode :=
  if c = 0 then some .keep else if c = 1 then some .copy else if c = 2 then some .empty else none

/-- R48: the modes of COMMIT. -/
inductive CommitMode where
  | swap
  | fence
  deriving DecidableEq, Repr

def CommitMode.ofCode (c : Byte) : Option CommitMode :=
  if c = 0 then some .swap else if c = 1 then some .fence else none

/-- 11.3: the bank selector of an argument. -/
inductive BankSelector where
  | active
  | standby
  deriving DecidableEq, Repr

def BankSelector.ofCode (c : Byte) : Option BankSelector :=
  if c = 0 then some .active else if c = 1 then some .standby else none

/-- R167: the counter groups. -/
inductive Group where
  | rx (p : Port)
  | tx (p : Port)
  | agent
  deriving DecidableEq, Repr

def Group.ofCode (c : Byte) : Option Group :=
  if c = 0 then some (.rx .A) else if c = 1 then some (.tx .A) else if c = 2 then some (.rx .B)
  else if c = 3 then some (.tx .B) else if c = 4 then some .agent else none

/-! ### Rule entries (11.3, R181) -/

def Ingress.ofCode : Nat → Option Ingress
  | 0 => some .A
  | 1 => some .B
  | 2 => some .either
  | _ => none

def Ingress.code : Ingress → Nat
  | .A => 0
  | .B => 1
  | .either => 2

def OneShot.ofCode : Nat → Option OneShot
  | 0 => some .none
  | 1 => some .armed
  | 2 => some .spent
  | _ => none

def OneShot.code : OneShot → Nat
  | .none => 0
  | .armed => 1
  | .spent => 2

def Chain.code : Chain → Nat
  | .stop => 0
  | .continue => 1

/-- R155, check 3: FIXED with 0 to 254, OFFSET with 1 to 254. -/
def SrcRewrite.ofCode (c : Nat) (v : Byte) : Option SrcRewrite :=
  match c with
  | 0 => some .absent
  | 1 => if v = 255 then none else some (.fixed v)
  | 2 => if v = 0 ∨ v = 255 then none else some (.offset v)
  | _ => none

def SrcRewrite.code : SrcRewrite → Nat
  | .absent => 0
  | .fixed _ => 1
  | .offset _ => 2

/-- R181: an absent rewrite's value byte is returned as 0. -/
def SrcRewrite.value : SrcRewrite → Byte
  | .absent => 0
  | .fixed v => v
  | .offset k => k

/-- The meter byte: 0 to 15, or 255 for NONE; 16 to 254 name none. -/
def meterOfCode (c : Byte) : Option (Option (Fin 16)) :=
  if c = 255 then some none else if h : c.toNat < 16 then some (some ⟨c.toNat, h⟩) else none

def meterCode : Option (Fin 16) → Byte
  | none => 255
  | some m => BitVec.ofNat 8 m.val

def profileOfCode (c : Byte) : Option (Fin 32) := if h : c.toNat < 32 then some ⟨c.toNat, h⟩ else none

/-- R155 check 3, R181: the rule entry a 12-byte encoding names, none when a field holds no defined value or
a zero bit holds 1. The value bytes of an absent rewrite are not looked at. -/
def decodeRule (b : List Byte) : Option RuleEntry :=
  if bitsOf (byteAt b 0) 0 2 ≠ 0 ∨ bitsOf (byteAt b 1) 3 5 ≠ 0 ∨ bitsOf (byteAt b 1) 0 3 = 0 ∨
      bitsOf (byteAt b 9) 2 5 ≠ 0 then none
  else
    match Ingress.ofCode (bitsOf (byteAt b 0) 5 2), OneShot.ofCode (bitsOf (byteAt b 0) 3 2),
      profileOfCode (byteAt b 7), meterOfCode (byteAt b 8),
      SrcRewrite.ofCode (bitsOf (byteAt b 9) 0 2) (byteAt b 11) with
    | some ingress, some oneShot, some profile, some meter, some srcRewrite =>
      some
        { valid := bitsOf (byteAt b 0) 7 1 == 1
          ingress := ingress
          types := ⟨bitsOf (byteAt b 1) 0 1 == 1, bitsOf (byteAt b 1) 1 1 == 1, bitsOf (byteAt b 1) 2 1 == 1⟩
          dst := ⟨byteAt b 2, byteAt b 3⟩
          src := ⟨byteAt b 4, byteAt b 5⟩
          classes := byteAt b 6
          oneShot := oneShot
          chain := if bitsOf (byteAt b 0) 2 1 = 1 then .continue else .stop
          profile := profile
          meter := meter
          dstRewrite := if bitsOf (byteAt b 9) 7 1 = 1 then some (byteAt b 10) else none
          srcRewrite := srcRewrite }
    | _, _, _, _, _ => none

/-- 11.3: a rule entry as READ-RULE returns it. -/
def encodeRule (e : RuleEntry) : List Byte :=
  [BitVec.ofNat 8 ((if e.valid then 128 else 0) + e.ingress.code * 32 + e.oneShot.code * 8 + e.chain.code * 4),
    BitVec.ofNat 8 ((if e.types.undelivered then 4 else 0) + (if e.types.mgmt then 2 else 0) +
      (if e.types.data then 1 else 0)),
    e.dst.value, e.dst.mask, e.src.value, e.src.mask, e.classes, BitVec.ofNat 8 e.profile.val, meterCode e.meter,
    BitVec.ofNat 8 ((if e.dstRewrite.isSome then 128 else 0) + e.srcRewrite.code),
    e.dstRewrite.getD 0, e.srcRewrite.value]

/-! ### Action profiles (11.3, R181) -/

def Disposition.ofCode (c : Byte) : Option Disposition :=
  if c = 0 then some .forward else if c = 1 then some .drop else if c = 2 then some .dropRefuse else none

def Disposition.code : Disposition → Byte
  | .forward => 0
  | .drop => 1
  | .dropRefuse => 2

def QueueRule.ofCode : Nat → Option QueueRule
  | 0 => some .urgent
  | 1 => some .normal
  | 2 => some .asReceived
  | _ => none

def QueueRule.code : QueueRule → Nat
  | .urgent => 0
  | .normal => 1
  | .asReceived => 2

def Policy.ofCode : Nat → Option Policy
  | 0 => some .drop
  | 1 => some .refuse
  | 2 => some .busy
  | 3 => some .demote
  | _ => none

def Policy.code : Policy → Nat
  | .drop => 0
  | .refuse => 1
  | .busy => 2
  | .demote => 3

/-- R156, R181: the profile a 4-byte encoding names. -/
def decodeProfile (b : List Byte) : Option Profile :=
  if bitsOf (byteAt b 1) 5 3 ≠ 0 ∨ bitsOf (byteAt b 1) 2 2 ≠ 0 ∨ bitsOf (byteAt b 2) 5 3 ≠ 0 ∨
      bitsOf (byteAt b 2) 2 2 ≠ 0 ∨ bitsOf (byteAt b 3) 3 4 ≠ 0 then none
  else
    match Disposition.ofCode (byteAt b 0), QueueRule.ofCode (bitsOf (byteAt b 1) 0 2),
      Policy.ofCode (bitsOf (byteAt b 2) 0 2) with
    | some disposition, some queue, some policy =>
      some
        { disposition := disposition
          egress := if bitsOf (byteAt b 1) 4 1 = 1 then .same else .other
          queue := queue
          policy := policy
          notify := bitsOf (byteAt b 2) 4 1 == 1
          clsRewrite :=
            if bitsOf (byteAt b 3) 7 1 = 1 then some (BitVec.ofNat 3 (byteAt b 3).toNat) else none }
    | _, _, _ => none

/-- 11.3: a profile as READ-PROFILE returns it. -/
def encodeProfile (q : Profile) : List Byte :=
  [q.disposition.code,
    BitVec.ofNat 8 ((match q.egress with | .other => 0 | .same => 16) + q.queue.code),
    BitVec.ofNat 8 ((if q.notify then 16 else 0) + q.policy.code),
    BitVec.ofNat 8 (match q.clsRewrite with | none => 0 | some c => 128 + c.toNat)]

/-! ### Parameter blocks (11.3, R164, R181) -/

/-- A 24-byte parameter block with its presence mask. -/
structure ParamBlock where
  mask : Nat
  bytes : List Byte
  deriving DecidableEq, Repr

/-- Mask bit `i`: the field's bytes hold a value; else KEEP. -/
def ParamBlock.given (b : ParamBlock) (i : Nat) : Bool := b.mask.testBit i

/-- A field of one byte, or the value kept. -/
def ParamBlock.pick8 (b : ParamBlock) (bit at' : Nat) (kept : Nat) : Nat :=
  if b.given bit then (byteAt b.bytes at').toNat else kept

/-- A field of two bytes, or the value kept. -/
def ParamBlock.pick16 (b : ParamBlock) (bit at' : Nat) (kept : Nat) : Nat :=
  if b.given bit then be16At b.bytes at' else kept

/-- R164: the immediate values the block would produce from those in force. -/
def ParamBlock.params (b : ParamBlock) (q : Params) : Params where
  replyWait := b.pick8 0 0 q.replyWait
  urgentGap := b.pick8 1 1 q.urgentGap
  normalGap := b.pick8 2 2 q.normalGap
  window := b.pick8 3 3 q.window
  retryLimit := b.pick8 4 4 q.retryLimit
  ladder := if b.given 5 then Vector.ofFn fun i => byteAt b.bytes (5 + i.val) else q.ladder
  busyLimit := b.pick8 6 13 q.busyLimit
  busyHold := b.pick8 7 14 q.busyHold
  deferLimit := b.pick16 8 15 q.deferLimit
  ageLimit := b.pick16 9 17 q.ageLimit
  dupWindow := b.pick16 10 19 q.dupWindow

/-- R164: the staged values the block would produce from those staged. -/
def ParamBlock.settings (b : ParamBlock) (q : Settings) : Settings where
  rate := if b.given 11 then (Rate.ofCode (byteAt b.bytes 21)).getD q.rate else q.rate
  own := if b.given 12 then byteAt b.bytes 22 else q.own
  queueLimit := b.pick8 13 23 q.queueLimit

/-- R164, second check, and the zero bits of the mask (R181): every field that is not KEEP lies in its range. -/
def ParamBlock.inRange (b : ParamBlock) : Bool :=
  let within (bit : Nat) (v lo hi : Nat) : Bool := !b.given bit || (decide (lo ≤ v) && decide (v ≤ hi))
  let byte (i : Nat) : Nat := (byteAt b.bytes i).toNat
  !b.given 14 && !b.given 15
    && within 0 (byte 0) 16 200 && within 1 (byte 1) 24 240 && within 2 (byte 2) 32 250
    && within 3 (byte 3) 6 32 && within 4 (byte 4) 0 15 && within 6 (byte 13) 0 15
    && within 7 (byte 14) 1 255 && within 8 (be16At b.bytes 15) 0 2000
    && within 9 (be16At b.bytes 17) 0 60000 && within 10 (be16At b.bytes 19) 0 10000
    && within 11 (byte 21) 0 2 && within 12 (byte 22) 0 254 && within 13 (byte 23) 4 30

/-- R164, third check: the urgent gap exceeds the reply wait and the normal gap the urgent gap. -/
def Params.gapsOrdered (q : Params) : Bool :=
  decide (q.replyWait < q.urgentGap) && decide (q.urgentGap < q.normalGap)

/-- 11.3: bytes 0 to 20 of a parameter block, from the values in force. -/
def encodeParams (q : Params) : List Byte :=
  [BitVec.ofNat 8 q.replyWait, BitVec.ofNat 8 q.urgentGap, BitVec.ofNat 8 q.normalGap, BitVec.ofNat 8 q.window,
    BitVec.ofNat 8 q.retryLimit] ++ q.ladder.toList ++
    [BitVec.ofNat 8 q.busyLimit, BitVec.ofNat 8 q.busyHold] ++ be16 q.deferLimit ++ be16 q.ageLimit ++
    be16 q.dupWindow

end Sys2Proof.Machine
end

