-- ==== Sys2Proof/Machine/Ops.lean ====
section
/-! DEFINITION. The operations the events share: the line, the banks, the frame store's counts and
admissions, responses and tag records, the end of a fence, restarts, and the freeing of a slot. -/

namespace Sys2Proof.Machine

/-! ### The line of a port (R80, R81, R95) -/

/-- Activity of `bits` bit times begins on port `p`'s line: idle time starts again at its end, or at the end
of activity already there if that is later (R80, R81). -/
def State.activity (s : State) (p : Port) (bits : Nat) : State :=
  s.modPort p fun x => { x with idleSince := max x.idleSince (s.clock + bits * s.bitTime p) }

/-- The clock at the end of byte `k` of a send that began at `start` (R80, R86). -/
def State.byteEnd (s : State) (p : Port) (start k : Nat) : Nat := start + k * Config.bitsPerByte * s.bitTime p

/-- The clock at which the port began what it is sending, its frame or its reply, while it drives its line. -/
def State.driveStart (s : State) (p : Port) : Option Nat :=
  match (s.port p).tx.state, (s.port p).rx.state with
  | .sending _ start, _ => some start
  | _, .replying _ start => some start
  | _, _ => none

/-- The clock at which the port that began to send at `start` stops driving: the end of the byte in which a
collision has shown, or of the last byte (R86). -/
def State.driveEnd (s : State) (p : Port) (start : Nat) : Nat :=
  s.byteEnd p start (((s.port p).clash).getD (s.driven p).length)

/-- R86: the number of the byte being sent now, from 1 at the first byte of the frame. -/
def State.byteNow (s : State) (p : Port) (start : Nat) : Nat :=
  (s.clock - start) / (Config.bitsPerByte * s.bitTime p) + 1

/-- 12, R80: TXD of port `p`: the bit of its frame or reply that it is sending now, and the idle level while it
sends nothing. -/
def State.txd (s : State) (p : Port) : LineBit :=
  match s.driveStart p with
  | some start =>
    if s.clock < s.driveEnd p start then
      (lineBits (s.driven p)).getD ((s.clock - start) / s.bitTime p) .idle
    else .idle
  | none => .idle

/-- R80, R81: the end of the last activity known on port `p`'s line, by any station: what others send, and what the
port itself sends while it drives. It lies ahead of the clock while activity lasts. -/
def State.lineEnd (s : State) (p : Port) : Nat :=
  match s.driveStart p with
  | some start => max (s.port p).idleSince (s.driveEnd p start)
  | none => (s.port p).idleSince

/-- R80: the idle time of port `p`'s line in microseconds, 0 while it is active. -/
def State.idleTime (s : State) (p : Port) : Nat := s.clock - s.lineEnd p

/-- Idle time on port `p` has reached `bits` bit times. -/
def State.idleReached (s : State) (p : Port) (bits : Nat) : Bool :=
  decide (bits * s.bitTime p ≤ s.idleTime p)

/-- The port has stopped driving at the end `ended` of the last byte it sent: idle time starts there, or at the end
of another station's activity if that is later (R81). When that activity lasts to the moment the driver goes off or
beyond it, the port has stopped in the middle of it, and assembly waits for 3 bt of idle time (R95, log entry 15).
What was read back is done with (R86). -/
def State.driverOff (s : State) (p : Port) (ended : Nat) : State :=
  s.modPort p fun x =>
    { x with
      idleSince := max x.idleSince ended
      clash := none
      rx := { x.rx with holdOff := decide (ended ≤ x.idleSince) } }

/-- R81, R110, R132: the end of the last activity on port `p`'s line when its driver, if it is on, is turned off at
once. -/
def State.cutOff (s : State) (p : Port) : Nat :=
  match s.driveStart p with
  | some start => max (s.port p).idleSince (min s.clock (s.driveEnd p start))
  | none => (s.port p).idleSince

/-! ### Banks (R7, R38) -/

def BankName.other : BankName → BankName
  | .X => .Y
  | .Y => .X

def State.bank (s : State) : BankName → Bank
  | .X => s.bankX
  | .Y => s.bankY

def State.modBank (s : State) (n : BankName) (f : Bank → Bank) : State :=
  match n with
  | .X => { s with bankX := f s.bankX }
  | .Y => { s with bankY := f s.bankY }

/-- R7: the bank walks read. -/
def State.activeBank (s : State) : Bank := s.bank s.active

/-- R38: the other bank is standby. -/
def State.standby (s : State) : BankName := s.active.other

/-! ### Slots and counts (R58 to R60) -/

def Slot.isData : Slot → Bool
  | .data _ => true
  | .mgmt _ => false

def Slot.frame : Slot → Frame
  | .data d => d.frame
  | .mgmt m => m.frame

/-- R59: the abandon mark; a management-origin slot never carries it. -/
def Slot.marked : Slot → Bool
  | .data d => d.mark
  | .mgmt _ => false

/-- R59: the slot carries a restart trigger. -/
def Slot.hasTrigger : Slot → Bool
  | .data _ => false
  | .mgmt m => decide (m.trigger ≠ .none)

/-- R39: a data-origin slot is old when its epoch differs from the commit count. -/
def Slot.isOld (c : Count) : Slot → Bool
  | .data d => decide (d.epoch ≠ c)
  | .mgmt _ => false

/-- R39: an old slot of a queue or transmit position. -/
def PortState.slots (x : PortState) : List Slot := x.urgent ++ x.normal ++ x.tx.pos.toList

/-- R60: the data-origin count of port `p`. -/
def State.dataAt (s : State) (p : Port) : Nat := (s.port p).slots.countP Slot.isData

/-- R60: the data-origin count. -/
def State.dataCount (s : State) : Nat := s.dataAt .A + s.dataAt .B

/-- R60: the management-origin count; it includes the agent queue and the fence holder (R65). -/
def State.mgmtCount (s : State) : Nat :=
  (s.port .A).slots.countP (fun x => !x.isData) + (s.port .B).slots.countP (fun x => !x.isData) +
    s.agentQueue.length + (if s.fence.isSome then 1 else 0)

/-- R60: the free count. -/
def State.freeCount (s : State) : Nat := Config.slotCount - (s.dataCount + s.mgmtCount)

/-- R39, R73: the number of old slots in the egress queues and transmit positions. -/
def State.oldCount (s : State) : Nat :=
  (s.port .A).slots.countP (Slot.isOld s.commitCount) + (s.port .B).slots.countP (Slot.isOld s.commitCount)

/-- R64: admission of a data frame for egress port `e`. -/
def State.admitsData (s : State) (e : Port) : Bool :=
  decide (1 ≤ s.freeCount) && decide (s.dataCount < Config.dataCap) &&
    decide (s.dataAt e < (s.port e).inForce.queueLimit)

/-- R65: admission of a management request. -/
def State.admitsRequest (s : State) : Bool :=
  decide (1 ≤ s.freeCount) && decide (s.mgmtCount < Config.mgmtCap) &&
    decide (s.agentQueue.length < Config.agentQueueCap) && decide (s.restartPending = 0)

/-- R61: a slot joins an egress queue of port `p` at its tail. -/
def State.enqueue (s : State) (p : Port) (q : QueueChoice) (x : Slot) : State :=
  s.modPort p fun y =>
    match q with
    | .urgent => { y with urgent := y.urgent ++ [x] }
    | .normal => { y with normal := y.normal ++ [x] }

/-! ### The manager table (R134, R135) -/

/-- The entry is the one of this port and address. -/
def Manager.is (e : Manager) (p : Port) (a : Byte) : Bool := e.port == p && e.addr == a

/-- R135: the requester's entry, as the table stands. -/
def State.manager (s : State) (p : Port) (a : Byte) : Option Manager := s.managers.find? (·.is p a)

/-- The entries of one port and address are changed by `f`, the others left. -/
def State.modManager (s : State) (p : Port) (a : Byte) (f : Manager → Manager) : State :=
  { s with managers := s.managers.map fun e => if e.is p a then f e else e }

/-! ### Responses (R68, R141, R142) -/

/-- R142: the pending tag becomes NONE when it equals the request's tag; for a response that is no replay
the tag and the record become the last tag and the cached response. -/
def Manager.record (tag : Byte) (fresh : Option (List Byte)) (e : Manager) : Manager :=
  { e with
    pendingTag := if e.pendingTag = some tag then none else e.pendingTag
    last := match fresh with
      | some r => some (tag, r)
      | none => e.last }

/-- R142: a request with tag 0 updates no tag record; nor does one of a station that is no manager. -/
def State.recordTag (s : State) (m : MgmtSlot) (fresh : Option (List Byte)) : State :=
  if m.tag = 0 then s else s.modManager m.port m.requester (Manager.record m.tag fresh)

/-- R141: the request's slot as its response, with the requester as destination and the own address of the
request port in force as source. The sequence is assigned at selection (log entry 9). -/
def State.response (s : State) (m : MgmtSlot) (record : List Byte) (t : Trigger) : MgmtSlot :=
  { m with
    kind := .response
    frame := ⟨m.requester, (s.port m.port).inForce.own, .mgmt, false, 0, 0, record⟩
    trigger := t }

/-- R68: the slot `m`, already out of its place, becomes a response on the normal queue of its request
port, and the tag record of its requester is updated. `fresh` is none for a replay (R140). -/
def State.respond (s : State) (m : MgmtSlot) (record : List Byte) (t : Trigger) (fresh : Option (List Byte)) :
    State :=
  (s.enqueue m.port .normal (.mgmt (s.response m record t))).recordTag m fresh

/-- The response that carrying out or refusing a command builds (R141, R142). -/
def State.answer (s : State) (m : MgmtSlot) (st : Status) (result : List Byte) (t : Trigger) : State :=
  let record := responseRecord m.tag m.code st result
  s.respond m record t (some record)

/-- 11.3: the result of COMMIT: active bank, commit count, discard count. -/
def State.commitResult (s : State) (discards : Nat) : List Byte :=
  s.active.code :: (be32 s.commitCount ++ [BitVec.ofNat 8 discards])

/-! ### The end of a fence (R52, R53, R73) -/

/-- R52, R53: the holder slot becomes the COMMIT's response and the fence is no longer pending. -/
def State.endFence (s : State) (f : Fence) (st : Status) (discards : Nat) : State :=
  { s with fence := none }.answer f.holder st (s.commitResult discards) .none

/-- R73: the freeing of a data-origin slot is reported to a pending fence when the slot was old; when no
old slot remains the fence ends with status OK (R52). -/
def State.reportFreed (s : State) (wasOld : Bool) : State :=
  match s.fence with
  | none => s
  | some f => if wasOld = true ∧ s.oldCount = 0 then s.endFence f .ok 0 else s

/-! ### Restarts (R110, R132, R145 to R147) -/

/-- R110: a receive path after a restart of its port; counters are kept, and assembly waits for 3 bt of
idle time. -/
def RxPath.restarted (x : RxPath) : RxPath :=
  { powerOnRx with holdOff := true, counters := x.counters }

/-- R132: a transmit path after a restart of its port; counters are kept. -/
def TxPath.restarted (x : TxPath) : TxPath := { powerOnTx with counters := x.counters }

/-- R74, R110, R130, R132: a port after its restart: its queues and transmit position emptied, its paths reset, its
staged values in force, its immediate parameters kept. A driver that was on is turned off at once, which leaves the
last activity of its line at `lineEnd`, and what was read back is done with. -/
def PortState.restarted (lineEnd : Nat) (x : PortState) : PortState :=
  { x with
    rx := x.rx.restarted
    tx := x.tx.restarted
    urgent := []
    normal := []
    inForce := x.staged
    clash := none
    idleSince := lineEnd }

/-- R147: the pending tags of the managers of the ports named are cleared. -/
def clearPending (p : Port → Bool) (ms : List Manager) : List Manager :=
  ms.map fun e => if p e.port then { e with pendingTag := none } else e

/-- The requests of port `p` in the agent queue. -/
def State.requestsOf (s : State) (p : Port) : Nat := s.agentQueue.countP (fun m => m.port == p)

/-- R74: the slots a restart flushes from port `p`'s places, and its requests, each raising flushed. -/
def State.raiseFlushed (s : State) (p : Port) : State :=
  s.raiseTxBy p .flushed ((s.port p).slots.length + s.requestsOf p)

/-- R145 to R147, R169: a port restart of `p`. The mark is lowered for each trigger slot flushed; when the
flush empties the old set of a pending fence, the fence ends with status OK after the restart (R56, log
entry 8). -/
def State.portRestart (s : State) (p : Port) : State :=
  let flushed := (s.port p).slots
  let s1 := ((s.raiseFlushed p).modPort p (PortState.restarted (s.cutOff p))).raiseAgent .portRestarts
  let s2 :=
    { s1 with
      agentQueue := s.agentQueue.filter fun m => m.port != p
      managers := clearPending (· == p) s.managers
      restartPending := s.restartPending - flushed.countP Slot.hasTrigger }
  s2.reportFreed (flushed.any (Slot.isOld s.commitCount))

/-- R29: the meters after a soft restart: full, each with a fresh interval at its configured interval. -/
def Meter.refilledAt (t : Nat) (m : Meter) : Meter := { m with tokens := m.capacity, start := t }

/-- R170: a soft restart. A pending fence ends without a response and its holder slot is freed (R56); the
session becomes NONE (R40). -/
def State.softRestart (s : State) : State :=
  let s1 := ((s.raiseFlushed .A).raiseFlushed .B).raiseAgent .restarts
  let s2 := (s1.modPort .A (PortState.restarted (s.cutOff .A))).modPort .B (PortState.restarted (s.cutOff .B))
  { s2 with
    agentQueue := []
    managers := clearPending (fun _ => true) s.managers
    restartPending := 0
    session := none
    fence := none
    meters := s.meters.map (Meter.refilledAt s.now) }

/-- R145: a trigger slot has reached its terminal outcome and is freed: the mark falls by 1 and the restart
takes place. -/
def State.runTrigger (s : State) : Trigger → State
  | .none => s
  | .restart => { s with restartPending := s.restartPending - 1 }.softRestart
  | .restartPort p => { s with restartPending := s.restartPending - 1 }.portRestart p

/-! ### The transmit position (R63, R70 to R72, R125) -/

/-- The path is IDLE, its position empty and its counts discarded (R125). -/
def TxPath.vacated (x : TxPath) : TxPath :=
  { x with state := .idle, pos := none, attempts := 0, collisions := 0, busies := 0 }

def State.vacate (s : State) (p : Port) : State := s.modTx p TxPath.vacated

/-- R72: the slot in port `p`'s transmit position is freed at a terminal outcome. A data-origin slot's
freeing is reported to bank control (R73); a restart trigger acts after the freeing (R127). -/
def State.endFreed (s : State) (p : Port) : State :=
  match (s.port p).tx.pos with
  | none => s.vacate p
  | some (.data d) => (s.vacate p).reportFreed (decide (d.epoch ≠ s.commitCount))
  | some (.mgmt m) => (s.vacate p).runTrigger m.trigger

/-- R70: a failed slot becomes an undelivered notice when it is of kind FORWARD frame, asks to be notified
of, was unicast as received, and its frame is not of type UNDELIVERED. -/
def DataSlot.makesNotice (d : DataSlot) : Bool :=
  decide (d.kind = .forward) && d.notify && decide (d.origDst ≠ 255) && decide (d.frame.type ≠ .undelivered)

/-- R70, R126: the slot as an undelivered notice. -/
def State.notice (s : State) (d : DataSlot) (r : Failure) (attempts : Nat) : DataSlot :=
  { d with
    kind := .notice
    frame := ⟨d.origSrc, (s.port d.ingress).inForce.own, .undelivered, false, 0, 0,
      noticeRecord d.origDst d.origCls r attempts⟩
    arrival := s.now
    egress := d.ingress
    queue := .normal
    notify := false
    mark := false }

/-- R70, R71: the slot in port `p`'s position ends with failure `r`: converted and placed on its ingress
port's normal queue, converted and dropped, or freed. -/
def State.endFailed (s : State) (p : Port) (r : Failure) : State :=
  match (s.port p).tx.pos with
  | some (.data d) =>
    if d.makesNotice then
      let s1 := s.vacate p
      if s1.dataAt d.ingress < (s.port d.ingress).inForce.queueLimit then
        (s1.enqueue d.ingress .normal (.data (s.notice d r (s.port p).tx.attempts))).raiseTx p .noticesMade
      else (s1.raiseTx p .noticesDropped).reportFreed (decide (d.epoch ≠ s.commitCount))
    else s.endFreed p
  | _ => s.endFreed p

/-- R54, R128: the frame ends FENCED. -/
def State.endFenced (s : State) (p : Port) : State := (s.raiseTx p .fenced).endFreed p

/-! ### Deferral and backoff (R116, R117, R119, R120) -/

/-- The slot in port `p`'s transmit position carries the abandon mark. -/
def State.markedAt (s : State) (p : Port) : Bool := (s.port p).tx.pos.any Slot.marked

/-- R118: the send begins; the collision window in force is read, and nothing has been read back. -/
def State.startSend (s : State) (p : Port) : State :=
  s.modPort p fun x => { x with clash := none, tx := { x.tx with state := .sending x.params.window s.clock } }

/-- R116: the gap of the frame in port `p`'s position. -/
def State.gapOf (s : State) (p : Port) : Nat :=
  if (s.port p).tx.pos.any (fun x => x.frame.urgent) then (s.port p).params.urgentGap
  else (s.port p).params.normalGap

/-- R116, R117: the path enters DEFER, reading the gap and the defer limit and starting the defer timer;
when idle time is already at the gap and no reply is owed, the send begins in the same event. -/
def State.enterDefer (s : State) (p : Port) : State :=
  let s1 := s.modTx p fun x =>
    { x with state := .defer (s.gapOf p) s.now (s.port p).params.deferLimit }
  if s1.idleReached p (s.gapOf p) = true ∧ (s.port p).rx.state = .idle then s1.startSend p else s1

/-- R120: the backoff of a frame whose attempt count is `n`, in bit times. -/
def PortState.backoffBits (x : PortState) (n : Nat) : Nat :=
  ((x.params.ladder.toList.getD (min n 8 - 1) 0).toNat + x.inForce.own.toNat % 8) * 16

/-- R120: the path enters BACKOFF, its wait counted from the moment `began`; a wait of 0 ends in the event that began
it. -/
def State.enterBackoff (s : State) (p : Port) (began : Nat) : State :=
  let wait := (s.port p).backoffBits (s.port p).tx.attempts
  if wait = 0 then s.enterDefer p
  else s.modTx p fun x => { x with state := .backoff (began + wait * s.bitTime p) }

/-- R119, R120: after an attempt that failed at the moment `failed` has raised the attempt count: the end of the
collided byte, or the NO-REPLY event. -/
def State.retryCheck (s : State) (p : Port) (failed : Nat) : State :=
  if (s.port p).params.retryLimit + 1 ≤ (s.port p).tx.attempts then
    (s.raiseTx p .retryExhausted).endFailed p .retryExhausted
  else s.enterBackoff p failed

/-- R124: the reply wait ends NO-REPLY. -/
def State.endNoReply (s : State) (p : Port) : State :=
  ((s.raiseTx p .noReply).modTx p fun x => { x with attempts := x.attempts + 1 }).retryCheck p s.clock

/-! ### The reply wait ends with a reply (R122 to R124) -/

/-- R122: DELIVERED. -/
def State.endDelivered (s : State) (p : Port) : State :=
  let s1 := s.raiseTx p .delivered
  let s2 :=
    if (s.port p).tx.collisions = 1 then s1.raiseTx p .singleCollision
    else if 2 ≤ (s.port p).tx.collisions then s1.raiseTx p .multiCollision
    else s1
  s2.endFreed p

/-- R123: BUSY. -/
def State.endBusy (s : State) (p : Port) : State :=
  let s1 := (s.raiseTx p .busyReceived).modTx p fun x => { x with busies := x.busies + 1 }
  if (s.port p).params.busyLimit < (s.port p).tx.busies + 1 then
    (s1.raiseTx p .busyExhausted).endFailed p .busyExhausted
  else s1.modTx p fun x => { x with state := .busyHold (s.now + (s.port p).params.busyHold) }

/-- R124: REFUSED. -/
def State.endRefused (s : State) (p : Port) : State := (s.raiseTx p .refusedReceived).endFailed p .refused

/-- The awaited reply is handed to the transmit path (R98, R121). -/
def State.settle (s : State) (p : Port) : ReplyType → State
  | .ack => s.endDelivered p
  | .busy => s.endBusy p
  | .refuse => s.endRefused p

/-- The path is waiting for a reply. -/
def TxState.isAwaiting : TxState → Bool
  | .awaitReply _ => true
  | _ => false

end Sys2Proof.Machine
end

