-- ==== Sys2Proof/Machine/Walk.lean ====
section
/-! DEFINITION. The walk over the active bank and its conclusion (01_the_rule_set_and_the_walk.md,
02_meters.md). -/

namespace Sys2Proof.Machine

/-! ### Matching (R2, R10) -/

/-- R2: the bits selected by the mask equal the value's. -/
def MatchField.holds (m : MatchField) (a : Byte) : Bool := a &&& m.mask == m.value &&& m.mask

def Ingress.covers : Ingress → Port → Bool
  | .A, p => p == .A
  | .B, p => p == .B
  | .either, _ => true

def TypeSet.has (t : TypeSet) : FrameType → Bool
  | .data => t.data
  | .mgmt => t.mgmt
  | .undelivered => t.undelivered
  | .ack | .busy | .refuse => false

/-- R10: the entry matches frame `f` received on port `p`. All tests use the frame as received. -/
def RuleEntry.matches (e : RuleEntry) (p : Port) (f : Frame) : Bool :=
  e.valid && e.ingress.covers p && e.types.has f.type && e.dst.holds f.dst && e.src.holds f.src &&
    e.classes.getLsbD f.cls.toNat && decide (e.oneShot ≠ .spent)

/-! ### The walk (R11 to R13) -/

/-- How a walk ends; a path lists entry indices in the order visited. -/
inductive WalkEnd where
  | overrun
  | unmatched
  | decided (path : List (Fin 128)) (profile : Fin 32)
  deriving DecidableEq, Repr

/-- R11 to R13: visits the entries at the indices given, with `path` collected so far. -/
def Bank.walkFrom (b : Bank) (p : Port) (f : Frame) : List (Fin 128) → List (Fin 128) → WalkEnd
  | [], _ => .unmatched
  | i :: rest, path =>
    let e := b.entries[i]
    if e.matches p f then
      if Config.pathCap ≤ path.length then .overrun
      else
        match e.chain with
        | .stop => .decided (path ++ [i]) e.profile
        | .continue => b.walkFrom p f rest (path ++ [i])
    else b.walkFrom p f rest path

/-- R11: the walk of frame `f`, received on port `p`, from index 0 upward. -/
def Bank.walk (b : Bank) (p : Port) (f : Frame) : WalkEnd := b.walkFrom p f (List.finRange 128) []

/-! ### Rewrites and the queue (R17 to R19) -/

/-- R17: the last destination rewrite present on the path, or the destination as received. -/
def Bank.newDst (b : Bank) (path : List (Fin 128)) (f : Frame) : Byte :=
  path.foldl (fun d i => (b.entries[i].dstRewrite).getD d) f.dst

/-- R17: one entry's source rewrite over what earlier entries gave; OFFSET applies to the source as
received, modulo 255. -/
def SrcRewrite.apply (r : SrcRewrite) (received before : Byte) : Byte :=
  match r with
  | .absent => before
  | .fixed v => v
  | .offset k => BitVec.ofNat 8 ((received.toNat + k.toNat) % 255)

/-- R17: the last source rewrite present on the path, or the source as received. -/
def Bank.newSrc (b : Bank) (path : List (Fin 128)) (f : Frame) : Byte :=
  path.foldl (fun d i => (b.entries[i].srcRewrite).apply f.src d) f.src

/-- R18: the egress port. -/
def Egress.port : Egress → Port → Port
  | .other, p => p.other
  | .same, p => p

/-- R18: the resolved frame names the egress port's own address, or is a MGMT or UNDELIVERED broadcast. -/
def rewriteFault (own dst src : Byte) (t : FrameType) : Bool :=
  dst == own || src == own || (decide (t ≠ .data) && dst == 255)

/-- R19: the queue the profile resolves. -/
def QueueRule.resolve : QueueRule → Bool → QueueChoice
  | .urgent, _ => .urgent
  | .normal, _ => .normal
  | .asReceived, asked => if asked then .urgent else .normal

/-! ### Meters (R20, R31) -/

/-- R20: meter `m` is named by an entry of the path. -/
def Bank.namesMeter (b : Bank) (path : List (Fin 128)) (m : Fin 16) : Bool :=
  path.any fun i => b.entries[i].meter == some m

/-- R20: the charge of a frame: its length as received in bytes. -/
def Frame.charge (f : Frame) : Nat := f.lineLength

/-- R20: every meter of the meter set holds at least the charge. -/
def State.conforms (s : State) (path : List (Fin 128)) (f : Frame) : Bool :=
  (List.finRange 16).all fun m =>
    !(s.activeBank.namesMeter path m) || decide (f.charge ≤ s.meters[m].tokens)

/-- R22: every meter of the meter set is charged, each once. -/
def State.chargeMeters (s : State) (path : List (Fin 128)) (f : Frame) : State :=
  { s with
    meters := Vector.ofFn fun m =>
      if s.activeBank.namesMeter path m then { s.meters[m] with tokens := s.meters[m].tokens - f.charge }
      else s.meters[m] }

/-! ### The duplicate filter (R16, R103) -/

/-- R16, R100: the port's filter entry for the frame's source holds the frame's sequence, recorded less
than the duplicate window in force ago. -/
def State.isDuplicate (s : State) (p : Port) (f : Frame) : Bool :=
  match ((s.port p).rx.filter[f.src.toNat]?).getD none with
  | some r => r.seq == f.seq && decide (s.now - r.time < (s.port p).params.dupWindow)
  | none => false

/-- R22, R101: the filter entry for the frame's source takes a record of its sequence and the time. -/
def State.recordFilter (s : State) (p : Port) (f : Frame) : State :=
  s.modRx p fun x =>
    { x with filter := x.filter.setIfInBounds f.src.toNat (some ⟨f.seq, s.now⟩) }

/-! ### Replies (R105) -/

/-- The frame's handling ends with no reply decided: the receive path is IDLE (R94). -/
def State.endSilent (s : State) (p : Port) : State := s.modRx p fun x => { x with state := .idle, inWait := false }

/-- R105: a reply of type `t` to frame `f` is decided: the receive path enters OWE-REPLY. -/
def State.owe (s : State) (p : Port) (f : Frame) (t : ReplyType) : State :=
  s.modRx p fun x => { x with state := .oweReply ⟨t, f.src, f.dst, f.seq⟩, inWait := false }

/-- A reply for a frame unicast as received; a broadcast gets none (R105). -/
def State.oweUnicast (s : State) (p : Port) (f : Frame) (t : ReplyType) : State :=
  if f.isBroadcast then s.endSilent p else s.owe p f t

/-! ### Taking (R4, R22, R23) -/

/-- R4: an ARMED entry becomes SPENT. -/
def RuleEntry.spend (e : RuleEntry) : RuleEntry :=
  match e.oneShot with
  | .armed => { e with oneShot := .spent }
  | .none | .spent => e

/-- R3, R4: the bank after a frame was taken along `path`. -/
def Bank.taken (b : Bank) (path : List (Fin 128)) : Bank :=
  { b with
    entries := Vector.ofFn fun i => if i ∈ path then b.entries[i].spend else b.entries[i]
    hits := Vector.ofFn fun i => if i ∈ path then satAdd b.hits[i] 1 else b.hits[i] }

/-- R17 to R19, R23: the slot record of a taken frame. -/
def State.takenSlot (s : State) (p : Port) (f : Frame) (path : List (Fin 128)) (q : Profile)
    (choice : QueueChoice) : DataSlot where
  kind := .forward
  frame :=
    { f with
      dst := s.activeBank.newDst path f
      src := s.activeBank.newSrc path f
      urgent := choice == .urgent
      cls := q.clsRewrite.getD f.cls }
  ingress := p
  origDst := f.dst
  origSrc := f.src
  origCls := f.cls
  arrival := s.now
  epoch := s.commitCount
  egress := q.egress.port p
  queue := choice
  notify := q.notify
  mark := false

/-- R22: admission is granted and the frame is taken; `charged` is false under DEMOTE. -/
def State.take (s : State) (p : Port) (f : Frame) (path : List (Fin 128)) (q : Profile)
    (choice : QueueChoice) (charged : Bool) : State :=
  let slot := s.takenSlot p f path q choice
  let s1 := if charged then s.chargeMeters path f else s
  let s2 := s1.modBank s.active fun b => b.taken path
  let s3 := if f.isBroadcast then s2 else s2.recordFilter p f
  ((s3.enqueue slot.egress choice (.data slot)).raiseRx p .takenForward).oweUnicast p f .ack

/-- R22: the frame is presented for admission to the resolved egress port. -/
def State.present (s : State) (p : Port) (f : Frame) (path : List (Fin 128)) (q : Profile)
    (choice : QueueChoice) (charged : Bool) : State :=
  if s.admitsData (q.egress.port p) then s.take p f path q choice charged
  else if f.isBroadcast then (s.raiseRx p .broadcastNoRoom).endSilent p
  else s.owe p f .busy

/-! ### The conclusion of a decided walk (R15 to R22) -/

/-- R20, R21: the meter test and the over-budget policies. -/
def State.police (s : State) (p : Port) (f : Frame) (path : List (Fin 128)) (q : Profile) : State :=
  if s.conforms path f then s.present p f path q (q.queue.resolve f.urgent) true
  else
    let s1 := s.raiseRx p .overBudget
    match q.policy with
    | .drop => s1.endSilent p
    | .refuse => s1.oweUnicast p f .refuse
    | .busy => s1.oweUnicast p f .busy
    | .demote => s1.present p f path q .normal false

/-- R16 to R18: the duplicate check and the fault check of a decided FORWARD. -/
def State.forward (s : State) (p : Port) (f : Frame) (path : List (Fin 128)) (q : Profile) : State :=
  if f.isBroadcast = false ∧ s.isDuplicate p f = true then (s.raiseRx p .duplicate).owe p f .ack
  else if rewriteFault (s.port (q.egress.port p)).inForce.own (s.activeBank.newDst path f)
      (s.activeBank.newSrc path f) f.type then
    (s.raiseRx p .rewriteFault).oweUnicast p f .refuse
  else s.police p f path q

/-- R15: the disposition of the decided profile. -/
def State.conclude (s : State) (p : Port) (f : Frame) (path : List (Fin 128)) (q : Profile) : State :=
  match q.disposition with
  | .drop => (s.raiseRx p .notTaken).endSilent p
  | .dropRefuse => (s.raiseRx p .notTaken).oweUnicast p f .refuse
  | .forward => s.forward p f path q

/-- R9, R11 to R13: the walk of a frame and its conclusion, one event at the receive path. -/
def State.runWalk (s : State) (p : Port) (f : Frame) : State :=
  match s.activeBank.walk p f with
  | .overrun => (s.raiseRx p .chainOverrun).endSilent p
  | .unmatched => (s.raiseRx p .notTaken).endSilent p
  | .decided path profile => s.conclude p f path s.activeBank.profiles[profile]

end Sys2Proof.Machine
end

