-- ==== Sys2Proof/Machine/Receive.lean ====
section
/-! DEFINITION. The receive path's events (06_receiving_and_replying.md). -/

namespace Sys2Proof.Machine

/-! ### Assembly (R80, R95) -/

/-- R80: the bit times an activity lasts. -/
def activityBits : Activity → Nat
  | .byte _ _ => Config.bitsPerByte
  | .noise bits => bits

/-- R95: a byte is placed at the next position while the buffer has room, counted, and marked when its stop
bit is not at the idle level; noise assembles no byte (R80). -/
def RxPath.store (x : RxPath) : Activity → RxPath
  | .byte v ok =>
    { x with
      buffer := if x.count < Config.bufferBytes then x.buffer ++ [v] else x.buffer
      count := x.count + 1
      framingFault := x.framingFault || !ok }
  | .noise _ => x

/-- R98, R99, R121: a start bit read now falls within the transmit path's reply wait. Where it falls
together with the end of the wait it counts as first (R99). -/
def State.withinWait (s : State) (p : Port) : Bool :=
  match (s.port p).tx.state with
  | .awaitReply wait => decide (s.idleTime p ≤ wait * s.bitTime p)
  | _ => false

/-- R95: the receive path enters RECEIVING with an emptied buffer. -/
def State.beginFrame (s : State) (p : Port) : State :=
  s.modRx p fun x =>
    { x with
      state := .receiving
      buffer := []
      count := 0
      framingFault := false
      inWait := s.withinWait p
      holdOff := false }

/-- R107: in OWE-REPLY a start bit abandons the reply and begins a new frame. -/
def State.abandonReply (s : State) (p : Port) : State := (s.raiseRx p .replyLost).beginFrame p

/-- R80: a start bit read now continues the frame being assembled: it follows the last stop bit within 3 bt
of idle time. After more the frame has ended, and its FRAME_END comes first (log entry 6). -/
def State.frameContinues (s : State) (p : Port) : Bool :=
  decide (s.idleTime p ≤ Config.frameEndGap * s.bitTime p)

/-- R86: what is read from one start bit on is what the port sends: the byte it is sending now, its start bit
and its stop bit where its own are. -/
def State.readsItself (s : State) (p : Port) (start : Nat) : Activity → Bool
  | .byte v ok =>
    ok && decide ((s.clock - start) % (Config.bitsPerByte * s.bitTime p) = 0) &&
      (s.driven p)[s.byteNow p start - 1]? == some v
  | .noise _ => false

/-- R81, R86: what a port reads while it drives is compared with what it sends, and not assembled. What is its own
changes nothing. A byte that differs, a start bit that is not its own, or noise is another station's activity, and a
collision in the byte being sent, unless one has shown already. Once the byte that showed it, or the last byte, has
been sent, the driver is off, and SEND_COMPLETE or COLLISION, or the reply's own, comes first (log entry 15). -/
def State.readBack (s : State) (p : Port) (start : Nat) (act : Activity) : State :=
  if s.driveEnd p start ≤ s.clock ∨ s.readsItself p start act = true then s
  else
    (s.modPort p fun x => { x with clash := some (x.clash.getD (s.byteNow p start)) }).activity p
      (activityBits act)

/-- R95, R107: what is read on the line reaches the receive path, or, while the port drives, the comparison
with what it sends (R81). -/
def State.receiveActivity (s : State) (p : Port) (act : Activity) : State :=
  match s.driveStart p with
  | some start => s.readBack p start act
  | none =>
    match (s.port p).rx.state with
    | .idle =>
      if (s.port p).rx.holdOff = true ∧ s.idleReached p Config.frameEndGap = false then
        s.activity p (activityBits act)
      else ((s.beginFrame p).modRx p fun x => x.store act).activity p (activityBits act)
    | .receiving =>
      if s.frameContinues p then (s.modRx p fun x => x.store act).activity p (activityBits act) else s
    | .oweReply _ =>
      if s.idleReached p Config.replyGap then s
      else ((s.abandonReply p).modRx p fun x => x.store act).activity p (activityBits act)
    | .replying _ _ => s

/-- BYTE_RECEIVED (R95). Activity of no bit time is none. -/
def execByteReceived (dt : Nat) (p : Port) (act : Activity) (s : State) : Host.Outcome State Fault Refusal :=
  .next (if activityBits act = 0 then s.elapse dt else (s.elapse dt).receiveActivity p act)

/-! ### The agent intake (R100, R101) -/

/-- R100, step 2: the requester is a manager and the request's tag, not 0, is its pending tag. -/
def State.repeatsPending (s : State) (p : Port) (f : Frame) : Bool :=
  match s.manager p f.src with
  | some e => decide (f.tag ≠ 0) && e.pendingTag == some f.tag
  | none => false

/-- R101: the pending tag of a manager's request with a non-zero tag is set. -/
def State.setPending (s : State) (p : Port) (f : Frame) : State :=
  if f.tag = 0 then s else s.modManager p f.src fun e => { e with pendingTag := some f.tag }

/-- R65: the slot of an admitted request. -/
def requestSlot (p : Port) (f : Frame) : MgmtSlot := ⟨.request, f, p, f.src, .none⟩

/-- R101: the request is taken. -/
def State.takeRequest (s : State) (p : Port) (f : Frame) : State :=
  let s1 := { s with agentQueue := s.agentQueue ++ [requestSlot p f] }
  ((((s1.recordFilter p f).setPending p f).raiseRx p .takenAgent).owe p f .ack)

/-- R100: the intake's steps. -/
def State.intake (s : State) (p : Port) (f : Frame) : State :=
  if s.isDuplicate p f then (s.raiseRx p .duplicate).owe p f .ack
  else if s.repeatsPending p f then (s.raiseAgent .duplicatePending).owe p f .ack
  else if s.admitsRequest then s.takeRequest p f
  else (s.raiseAgent .agentBusy).owe p f .busy

/-! ### Routing (R97, R98) -/

/-- R98: a reply that is not awaited is meant for the coupler: its destination is the port's own address or
the last-sent source. -/
def State.isStray (s : State) (p : Port) (f : Frame) : Bool :=
  f.dst == (s.port p).inForce.own || (s.port p).rx.lastSent == some f.dst

/-- R97, R98: a frame that passed screening is routed by its destination and type. -/
def State.route (s : State) (p : Port) (f : Frame) : State :=
  if f.type.isReply then (if s.isStray p f then s.raiseRx p .strayReply else s).endSilent p
  else if f.dst = (s.port p).inForce.own then
    if f.type = .mgmt then s.intake p f else (s.raiseRx p .ownData).endSilent p
  else s.runWalk p f

/-! ### The frame end (R96, R98, R99) -/

/-- R98: the reply the transmit path awaits: a frame that passed screening, whose type, addresses and
sequence answer the frame sent. -/
def State.awaited (s : State) (p : Port) (v : Screened) : Option ReplyType :=
  match v, (s.port p).tx.pos with
  | .good f, some x =>
    if f.dst = x.frame.src ∧ f.src = x.frame.dst ∧ f.seq = x.frame.seq then f.type.reply else none
  | _, _ => none

/-- R99: the frame that ends decides the reply wait. -/
def State.decidesWait (s : State) (p : Port) : Bool :=
  (s.port p).tx.state.isAwaiting && (s.port p).rx.inWait

/-- R54: a marked frame in AWAIT-REPLY has ended FENCED before a frame end is judged (log entry 11). -/
def State.settleMark (s : State) (p : Port) : State :=
  if (s.port p).tx.state.isAwaiting && s.markedAt p then s.endFenced p else s

/-- R96, R97: the frame is counted and routed, unless a restart set off in the same event has reached the
receive path and abandoned it (R110, log entry 7). -/
def State.handleFrame (s : State) (p : Port) (v : Screened) : State :=
  if (s.port p).rx.state = .receiving then
    match v with
    | .failed c => (s.raiseRx p c).endSilent p
    | .good f => (s.raiseRx p .rxGood).route p f
  else s

/-- What screening makes of the frame assembled at port `p` (R96). -/
def State.screened (s : State) (p : Port) : Screened :=
  screen (s.port p).inForce.own (s.port p).rx.buffer (s.port p).rx.count (s.port p).rx.framingFault

/-- R98, R99: the screened frame decides a pending reply wait, as the awaited reply or as NO-REPLY, and is
then handled. -/
def State.judgeFrame (s : State) (p : Port) (v : Screened) : State :=
  if s.decidesWait p then
    match s.awaited p v with
    | some r => ((s.raiseRx p .rxGood).endSilent p).settle p r
    | none => (s.endNoReply p).handleFrame p v
  else s.handleFrame p v

/-- R80, R96: the frame end: a frame is being assembled and idle time has reached 3 bt. -/
def State.frameEnds (s : State) (p : Port) : State :=
  if (s.port p).rx.state = .receiving ∧ s.idleReached p Config.frameEndGap = true then
    (s.settleMark p).judgeFrame p (s.screened p)
  else s

/-- FRAME_END (R96). -/
def execFrameEnd (dt : Nat) (p : Port) (s : State) : Host.Outcome State Fault Refusal :=
  .next ((s.elapse dt).frameEnds p)

/-! ### Replies (R106 to R108) -/

/-- R106: idle time has reached the reply gap: the reply's first byte starts, and nothing has been read back. -/
def State.startReply (s : State) (p : Port) : State :=
  match (s.port p).rx.state with
  | .oweReply r =>
    if s.idleReached p Config.replyGap then
      s.modPort p fun x => { x with clash := none, rx := { x.rx with state := .replying r s.clock } }
    else s
  | _ => s

/-- REPLY_GAP_REACHED (R106). -/
def execReplyGapReached (dt : Nat) (p : Port) (s : State) : Host.Outcome State Fault Refusal :=
  .next ((s.elapse dt).startReply p)

/-- R106: what a completed reply raises: busy-sent, refused-sent, or nothing for an ACK. -/
def State.raiseReplySent (s : State) (p : Port) : ReplyType → State
  | .ack => s
  | .busy => s.raiseRx p .busySent
  | .refuse => s.raiseRx p .refusedSent

/-- The receive path returns to IDLE with no reply obligation (R106, R108). -/
def State.replyOver (s : State) (p : Port) : State := s.modRx p fun x => { x with state := .idle }

/-- R106: the last stop bit of the reply has been sent, and no collision has shown. -/
def State.completeReply (s : State) (p : Port) : State :=
  match (s.port p).rx.state with
  | .replying r start =>
    let ended := s.byteEnd p start Config.frameOverhead
    if (s.port p).clash = none ∧ ended ≤ s.clock then ((s.raiseReplySent p r.type).driverOff p ended).replyOver p
    else s
  | _ => s

/-- REPLY_SENT (R106). -/
def execReplySent (dt : Nat) (p : Port) (s : State) : Host.Outcome State Fault Refusal :=
  .next ((s.elapse dt).completeReply p)

/-- R108: a collision has shown in byte `k` of the reply, and the byte has been sent. -/
def State.collideReply (s : State) (p : Port) (k : Nat) : State :=
  match (s.port p).rx.state with
  | .replying _ start =>
    let ended := s.byteEnd p start k
    if (s.port p).clash = some k ∧ ended ≤ s.clock then ((s.raiseRx p .replyLost).driverOff p ended).replyOver p
    else s
  | _ => s

/-- REPLY_COLLISION (R108). -/
def execReplyCollision (dt : Nat) (p : Port) (k : Nat) (s : State) : Host.Outcome State Fault Refusal :=
  .next ((s.elapse dt).collideReply p k)

/-- R107: a start bit, one bit time of activity, is read in OWE-REPLY before the reply gap. The byte it
begins follows as BYTE_RECEIVED (log entry 10). -/
def State.startBitInOwe (s : State) (p : Port) : State :=
  match (s.port p).rx.state with
  | .oweReply _ => if s.idleReached p Config.replyGap then s else (s.abandonReply p).activity p 1
  | _ => s

/-- REPLY_ABANDONED (R107). -/
def execReplyAbandoned (dt : Nat) (p : Port) (s : State) : Host.Outcome State Fault Refusal :=
  .next ((s.elapse dt).startBitInOwe p)

end Sys2Proof.Machine
end

