-- ==== Sys2Proof/Machine/Transmit.lean ====
section
/-! DEFINITION. The transmit path's events (07_transmitting.md). -/

namespace Sys2Proof.Machine

/-! ### Selection (R113 to R115) -/

/-- R113: the slot at the head of the urgent queue, or of the normal queue when the urgent queue is empty,
and the port without it. -/
def PortState.head (x : PortState) : Option (Slot × PortState) :=
  match x.urgent, x.normal with
  | h :: rest, _ => some (h, { x with urgent := rest })
  | [], h :: rest => some (h, { x with normal := rest })
  | [], [] => none

/-- R113: the path enters SELECT with the slot in its transmit position and its counts at 0. -/
def State.takeUp (s : State) (p : Port) (h : Slot) (x : PortState) : State :=
  s.modPort p fun _ =>
    { x with tx := { x.tx with state := .select, pos := some h, attempts := 0, collisions := 0, busies := 0 } }

/-- R114: a data-origin slot whose age exceeds the age limit in force, unless that is 0. -/
def State.isAged (s : State) (p : Port) : Slot → Bool
  | .data d =>
    decide ((s.port p).params.ageLimit ≠ 0) && decide ((s.port p).params.ageLimit < s.now - d.arrival)
  | .mgmt _ => false

/-- The slot with sequence `q` in its frame (R179). -/
def Slot.withSeq (q : BitVec 4) : Slot → Slot
  | .data d => .data { d with frame := { d.frame with seq := q } }
  | .mgmt m => .mgmt { m with frame := { m.frame with seq := q } }

/-- R115: a unicast frame takes the sender-sequence entry of its source, which advances by 1; a broadcast
takes 0 and leaves the table. -/
def TxPath.assignSeq (x : TxPath) (h : Slot) : TxPath :=
  if h.frame.isBroadcast then { x with pos := some (h.withSeq 0) }
  else
    let q := (x.seqTable[h.frame.src.toNat]?).getD 0
    { x with
      pos := some (h.withSeq q)
      seqTable := x.seqTable.setIfInBounds h.frame.src.toNat (q + 1) }

/-- R113: the path is IDLE, a queue holds a slot and the receive path owes no reply. -/
def State.select (s : State) (p : Port) : State :=
  if (s.port p).tx.state = .idle ∧ (s.port p).rx.state.owesReply = false then
    match (s.port p).head with
    | none => s
    | some (h, x) =>
      let s1 := s.takeUp p h x
      if s.isAged p h then (s1.raiseTx p .aged).endFailed p .aged
      else (s1.modTx p fun y => y.assignSeq h).enterDefer p
  else s

/-- SELECTION (R113). -/
def execSelection (dt : Nat) (p : Port) (s : State) : Host.Outcome State Fault Refusal :=
  .next ((s.elapse dt).select p)

/-! ### Deferral (R116, R117) -/

/-- R116: in DEFER the gap is reached with no reply owed. A marked frame is not sent (R128); a frame still
being assembled has not ended, so the gap is not reached (R80, log entry 6). -/
def State.reachGap (s : State) (p : Port) : State :=
  match (s.port p).tx.state with
  | .defer gap _ _ =>
    if s.idleReached p gap = true ∧ (s.port p).rx.state = .idle ∧ s.markedAt p = false then s.startSend p else s
  | _ => s

/-- GAP_REACHED (R116). -/
def execGapReached (dt : Nat) (p : Port) (s : State) : Host.Outcome State Fault Refusal :=
  .next ((s.elapse dt).reachGap p)

/-- R117: the defer limit, unless it is 0, is exceeded in DEFER. -/
def State.exhaustDefer (s : State) (p : Port) : State :=
  match (s.port p).tx.state with
  | .defer _ start limit =>
    if limit ≠ 0 ∧ limit < s.now - start ∧ s.markedAt p = false then
      (s.raiseTx p .deferExhausted).endFailed p .deferExhausted
    else s
  | _ => s

/-- DEFER_EXHAUSTED (R117). -/
def execDeferExhausted (dt : Nat) (p : Port) (s : State) : Host.Outcome State Fault Refusal :=
  .next ((s.elapse dt).exhaustDefer p)

/-! ### Sending (R118) -/

/-- R118: the last byte was sent, up to `ended`, without collision. The last-sent source is set; a marked frame
ends FENCED (R128), a broadcast SENT-BROADCAST, and a unicast frame waits for its reply (R121). -/
def State.sendDone (s : State) (p : Port) (x : Slot) (ended : Nat) : State :=
  let s1 := (s.driverOff p ended).modRx p fun y => { y with lastSent := some x.frame.src }
  if x.marked then s1.endFenced p
  else if x.frame.isBroadcast then (s1.raiseTx p .broadcastSent).endFreed p
  else s1.modTx p fun y => { y with state := .awaitReply (s.port p).params.replyWait }

/-- R118: the last byte has been sent, and no collision has shown. -/
def State.completeSend (s : State) (p : Port) : State :=
  match (s.port p).tx.state, (s.port p).tx.pos with
  | .sending _ start, some x =>
    let ended := s.byteEnd p start x.frame.lineLength
    if (s.port p).clash = none ∧ ended ≤ s.clock then s.sendDone p x ended else s
  | _, _ => s

/-- SEND_COMPLETE (R118). -/
def execSendComplete (dt : Nat) (p : Port) (s : State) : Host.Outcome State Fault Refusal :=
  .next ((s.elapse dt).completeSend p)

/-- R118: an ordinary collision raises collisions and the frame's collision and attempt counts. -/
def State.countCollision (s : State) (p : Port) : State :=
  (s.raiseTx p .collisions).modTx p fun x =>
    { x with attempts := x.attempts + 1, collisions := x.collisions + 1 }

/-- R118, R128: a collision in byte `k` of the send of slot `x`, the byte having been sent up to `ended`. -/
def State.collided (s : State) (p : Port) (x : Slot) (window k ended : Nat) : State :=
  let s1 := s.driverOff p ended
  if k ≤ window then
    if x.marked then (s1.countCollision p).endFenced p else (s1.countCollision p).retryCheck p ended
  else
    let s2 := s1.modTx p fun y => { y with attempts := y.attempts + 1 }
    if x.marked then s2.endFenced p else (s2.raiseTx p .lateCollision).endFailed p .lateCollision

/-- R118: a collision has shown in byte `k` of the frame, and the byte has been sent. -/
def State.collide (s : State) (p : Port) (k : Nat) : State :=
  match (s.port p).tx.state, (s.port p).tx.pos with
  | .sending window start, some x =>
    let ended := s.byteEnd p start k
    if (s.port p).clash = some k ∧ ended ≤ s.clock then s.collided p x window k ended else s
  | _, _ => s

/-- COLLISION (R118). -/
def execCollision (dt : Nat) (p : Port) (k : Nat) (s : State) : Host.Outcome State Fault Refusal :=
  .next ((s.elapse dt).collide p k)

/-! ### The waits (R120, R123, R124) -/

/-- R120: the backoff has run. -/
def State.endBackoff (s : State) (p : Port) : State :=
  match (s.port p).tx.state with
  | .backoff ends => if ends ≤ s.clock ∧ s.markedAt p = false then s.enterDefer p else s
  | _ => s

/-- BACKOFF_END (R120). -/
def execBackoffEnd (dt : Nat) (p : Port) (s : State) : Host.Outcome State Fault Refusal :=
  .next ((s.elapse dt).endBackoff p)

/-- R121, R124: idle time reaches the reply wait with no start bit read within it. A frame whose start bit
was read within the wait decides it at its own end (R99). -/
def State.exhaustWait (s : State) (p : Port) : State :=
  match (s.port p).tx.state with
  | .awaitReply wait =>
    if s.idleReached p wait = true ∧ ¬((s.port p).rx.state = .receiving ∧ (s.port p).rx.inWait = true) ∧
        s.markedAt p = false then
      s.endNoReply p
    else s
  | _ => s

/-- NO_REPLY (R124). -/
def execNoReply (dt : Nat) (p : Port) (s : State) : Host.Outcome State Fault Refusal :=
  .next ((s.elapse dt).exhaustWait p)

/-- R123: the busy hold has run. -/
def State.endBusyHold (s : State) (p : Port) : State :=
  match (s.port p).tx.state with
  | .busyHold ends => if ends ≤ s.now ∧ s.markedAt p = false then s.enterDefer p else s
  | _ => s

/-- BUSY_HOLD_END (R123). -/
def execBusyHoldEnd (dt : Nat) (p : Port) (s : State) : Host.Outcome State Fault Refusal :=
  .next ((s.elapse dt).endBusyHold p)

/-! ### The abandon mark (R54, R128) -/

/-- R54: the states in which a marked frame ends FENCED at once; in SENDING it ends at the end of the send. -/
def TxState.endsFencedNow : TxState → Bool
  | .defer _ _ _ | .backoff _ | .busyHold _ | .awaitReply _ => true
  | .idle | .select | .sending _ _ => false

/-- R54: the frame in port `p`'s position ends FENCED. -/
def State.obeyMark (s : State) (p : Port) : State :=
  if (s.port p).tx.state.endsFencedNow = true ∧ s.markedAt p = true then s.endFenced p else s

/-- FENCED (R54). -/
def execFenced (dt : Nat) (p : Port) (s : State) : Host.Outcome State Fault Refusal :=
  .next ((s.elapse dt).obeyMark p)

end Sys2Proof.Machine
end

