-- ==== Sys2Proof/Machine/Timers.lean ====
section
/-! DEFINITION. Reset and the management-scale timers: power-on reset (R183), meter refills (R28), the lease
(R44) and the fence timeout (R53). -/

namespace Sys2Proof.Machine

/-- POWER_ON_RESET (R183): the straps are sampled, coupler time starts at 0 and every block takes its
power-on values. R183 does not say how long the reset lasts: that it is one event of no duration, with no state in
which RESET_N is low, is the model's choice (log entry 17). The queue of commands is outside the part and stays; so
does the level of ENROL_EN (log entry 3). -/
def execPowerOnReset (straps : Straps) (s : State) : Host.Outcome State Fault Refusal :=
  .next { State.powerOn ⟨straps, s.pins.enrolEn⟩ with pending := s.pending }

/-- R28: a refill event: the tokens rise by the refill amount up to the capacity, and the next interval
starts at the moment the old one ended. -/
def Meter.refilled (m : Meter) : Meter :=
  { m with tokens := min m.capacity (m.tokens + m.refill), start := m.start + m.interval }

/-- R28: meter `m`'s interval has ended. -/
def State.refillMeter (s : State) (m : Fin 16) : State :=
  if s.meters[m].start + s.meters[m].interval ≤ s.now then
    { s with meters := s.meters.set m s.meters[m].refilled }
  else s

/-- METER_REFILL (R28). -/
def execMeterRefill (dt : Nat) (m : Fin 16) (s : State) : Host.Outcome State Fault Refusal :=
  .next ((s.elapse dt).refillMeter m)

/-- R44: the lease of an OPEN session lapses. -/
def State.lapse (s : State) : State :=
  match s.session with
  | some d => if d.deadline ≤ s.now then { s with session := none }.raiseAgent .leaseLapsed else s
  | none => s

/-- LEASE_LAPSE (R44). -/
def execLeaseLapse (dt : Nat) (s : State) : Host.Outcome State Fault Refusal := .next (s.elapse dt).lapse

/-- R53, step 2: an old slot in a transmit position is given the abandon mark. -/
def Slot.markOld (c : Count) : Slot → Slot
  | .data d => if d.epoch = c then .data d else .data { d with mark := true }
  | .mgmt m => .mgmt m

/-- R53, steps 1 and 2, at one port: the old slots of its queues leave, the old slot of its position is
marked. -/
def PortState.fenceFlush (c : Count) (x : PortState) : PortState :=
  { x with
    urgent := x.urgent.filter fun y => !y.isOld c
    normal := x.normal.filter fun y => !y.isOld c
    tx := { x.tx with pos := x.tx.pos.map (Slot.markOld c) } }

/-- R53, step 1: the old slots in port `p`'s queues. -/
def State.oldQueued (s : State) (p : Port) : Nat :=
  ((s.port p).urgent ++ (s.port p).normal).countP (Slot.isOld s.commitCount)

/-- R53, step 1: port `p`'s old queued slots are flushed, each raising fenced, and its old slot in the
transmit position is marked. -/
def State.flushOld (s : State) (p : Port) : State :=
  (s.raiseTxBy p .fenced (s.oldQueued p)).modPort p (PortState.fenceFlush s.commitCount)

/-- R53: a pending fence times out. The discard count is the slots flushed plus the slots marked, which are
the old set. -/
def State.timeOutFence (s : State) : State :=
  match s.fence with
  | some f =>
    if f.deadline ≤ s.now then
      (((s.flushOld .A).flushOld .B).raiseAgent .fenceTimeouts).endFence f .fenceTimeout s.oldCount
    else s
  | none => s

/-- FENCE_TIMEOUT (R53). -/
def execFenceTimeout (dt : Nat) (s : State) : Host.Outcome State Fault Refusal := .next (s.elapse dt).timeOutFence

end Sys2Proof.Machine
end

