-- ==== Sys2Proof/Machine/Agent.lean ====
section
/-! DEFINITION. The management agent's execution of the request at the head of its queue: the steps of R139
that every command shares (08_the_management_agent.md). -/

namespace Sys2Proof.Machine

/-- What a command answers at step 6: its status, its result and the restart trigger of its slot. -/
structure Answer where
  status : Status
  result : List Byte
  trigger : Trigger
  deriving DecidableEq, Repr

/-- R149: a refusal carries no result and no trigger. -/
def Answer.refuse (st : Status) : Answer := ⟨st, [], .none⟩

/-- Status OK with a result. -/
def Answer.okWith (result : List Byte) : Answer := ⟨.ok, result, .none⟩

/-- A command at step 6: the state it leaves, and its answer, or none when a fence holds the answer (R51).
It is given the request's slot, still at the head of the agent queue, and the argument bytes. -/
abbrev StepSix := State → MgmtSlot → List Byte → State × Option Answer

/-- R139, step 1: the cached response that answers the request, if it is a replay. -/
def State.replayOf (s : State) (m : MgmtSlot) : Option (List Byte) :=
  match s.manager m.port m.requester with
  | some e =>
    match e.last with
    | some (tag, record) => if m.tag ≠ 0 ∧ tag = m.tag then some record else none
    | none => none
  | none => none

/-- R136: the right a command needs of a manager; IDENTIFY needs none. -/
def Command.needsWrite : Command → Bool
  | .enrol | .dismiss | .openEdit | .writeRule | .writeProfile | .commit | .abandon | .setMeter | .setPort
  | .restartPort | .restart => true
  | .identify | .readRule | .readProfile | .readHits | .readMeter | .readPort | .readCounters | .readStore => false

/-- R136, R137: the refusal of step 4, if there is one. -/
def State.rightRefusal (s : State) (c : Command) (m : MgmtSlot) : Option Status :=
  match s.manager m.port m.requester with
  | some e => if c.needsWrite = true ∧ e.right = .read then some .noRight else none
  | none =>
    match c with
    | .identify => none
    | .enrol => if s.managers = [] ∧ s.pins.enrolEn = true then none else some .notManager
    | _ => some .notManager

/-- R136: a refusal at step 4 raises not-manager or no-right. -/
def State.countRefusal (s : State) : Status → State
  | .notManager => s.raiseAgent .notManager
  | .noRight => s.raiseAgent .noRight
  | _ => s

/-- R138: the request at the head of the agent queue leaves it. -/
def State.popRequest (s : State) : State := { s with agentQueue := s.agentQueue.tail }

/-- R139, steps 4 to 6. -/
def State.carryOut (s : State) (m : MgmtSlot) (c : Command) (six : StepSix) : State :=
  match s.rightRefusal c m with
  | some st => (s.countRefusal st).popRequest.answer m st [] .none
  | none =>
    if m.args.length ≠ c.argBytes then s.popRequest.answer m .badLength [] .none
    else
      match six s m m.args with
      | (s1, some a) => s1.popRequest.answer m a.status a.result a.trigger
      | (s1, none) => s1.popRequest

/-- R139, steps 2 and 3: the status of a request whose payload is too short or whose code names no command. -/
def MgmtSlot.malformed (m : MgmtSlot) : Status :=
  if m.frame.payload.length < 2 then .badLength else .unknownCommand

/-- R138, R139: one execution event, of request `m` at the head of the agent queue. -/
def State.executeRequest (s : State) (m : MgmtSlot) (c : Option Command) (six : StepSix) : State :=
  let s1 := s.raiseAgent .requestsTaken
  match s1.replayOf m with
  | some record => (s1.raiseAgent .replays).popRequest.respond m record .none none
  | none =>
    match c with
    | none => s1.popRequest.answer m m.malformed [] .none
    | some cmd => s1.carryOut m cmd six

/-- An agent row: the execution takes place when the request at the head of the agent queue is one of this
row's (R138); the row of UNKNOWN_COMMAND is that of the requests that name no command. -/
def State.agentRow (s : State) (c : Option Command) (six : StepSix) : State :=
  match s.agentQueue with
  | [] => s
  | m :: _ => if m.command = c then s.executeRequest m c six else s

/-- R184: the level of ENROL_EN at the execution event. -/
def State.withEnrolEn (s : State) (en : Bool) : State := { s with pins := { s.pins with enrolEn := en } }

/-- R40: the request comes from the owner of the OPEN session. -/
def State.ownsSession (s : State) (p : Port) (a : Byte) : Bool :=
  s.session.any fun d => d.port == p && d.addr == a

end Sys2Proof.Machine
end

