-- ==== Sys2Proof/Machine/Commands.lean ====
section
/-! DEFINITION. The management commands at step 6 (09_management_commands.md), in the order of the table, and
the meaning of each agent row. -/

namespace Sys2Proof.Machine

/-! ### Identification (R151, R182) -/

/-- R151: the requester's right as it stands at the execution event. -/
def State.rightCode (s : State) (m : MgmtSlot) : Byte :=
  match s.manager m.port m.requester with
  | some e => e.right.code
  | none => 0

/-- R182: session and owner, all 0 while the session is NONE. -/
def sessionBytes : Option Session → List Byte
  | some d => [1, portCode d.port, d.addr]
  | none => [0, 0, 0]

/-- R151: the 23 bytes of IDENTIFY. -/
def State.identity (s : State) (m : MgmtSlot) : List Byte :=
  be16 Config.vendorCode ++ be16 Config.partCode ++
    [Config.revisionCode, (s.port .A).inForce.own, (s.port .B).inForce.own, (s.port .A).inForce.rate.code,
      (s.port .B).inForce.rate.code, 32, 128, 32, 16, s.active.code] ++
    be32 s.commitCount ++ sessionBytes s.session ++ [flagCode s.fence.isSome, s.rightCode m]

def State.cmdIdentify (s : State) (m : MgmtSlot) (_ : List Byte) : State × Option Answer :=
  (s, some (.okWith (s.identity m)))

/-- IDENTIFY (R151). -/
def execIdentify (dt : Nat) (s : State) : Host.Outcome State Fault Refusal :=
  .next ((s.elapse dt).agentRow (some .identify) State.cmdIdentify)

/-! ### The manager table (R152, R153) -/

/-- R152, R153: no entry but that of this port and address has right WRITE. -/
def State.noOtherWriter (s : State) (p : Port) (a : Byte) : Bool :=
  s.managers.all fun e => e.is p a || decide (e.right ≠ .write)

/-- R46, R47: the session of this owner becomes NONE; another owner's is left. -/
def State.dropSession (s : State) (p : Port) (a : Byte) : State :=
  if s.ownsSession p a then { s with session := none } else s

/-- R134: a new entry: no tags and no cache. -/
def State.addManager (s : State) (p : Port) (a : Byte) (r : Right) : State :=
  { s with managers := s.managers ++ [⟨p, a, r, none, none⟩] }

/-- R152: the entry as it stands after the execution. -/
def enrolled (p : Port) (a : Byte) (r : Right) : Answer := .okWith [portCode p, a, r.code]

/-- R47, R152: the right of an existing entry changes; an owner downgraded to READ loses the session. -/
def State.changeRight (s : State) (p : Port) (a : Byte) (was r : Right) : State :=
  let s1 := s.modManager p a fun e => { e with right := r }
  if was = .write ∧ r = .read then s1.dropSession p a else s1

/-- R152: the ENROL of a WRITE manager, its arguments decoded. -/
def State.enrolEntry (s : State) (p : Port) (a : Byte) (r : Right) : State × Option Answer :=
  match s.manager p a with
  | some e =>
    if e.right = .write ∧ r = .read ∧ s.noOtherWriter p a = true ∧ s.pins.enrolEn = false then
      (s, some (.refuse .lastManager))
    else (s.changeRight p a e.right r, some (enrolled p a r))
  | none =>
    if Config.managerCap ≤ s.managers.length then (s, some (.refuse .tableFull))
    else (s.addManager p a r, some (enrolled p a r))

def State.cmdEnrol (s : State) (m : MgmtSlot) (args : List Byte) : State × Option Answer :=
  match s.manager m.port m.requester with
  | none => (s.addManager m.port m.requester .write, some (enrolled m.port m.requester .write))
  | some _ =>
    match portOfCode (byteAt args 0), Right.ofCode (byteAt args 2) with
    | some p, some r =>
      if byteAt args 1 = 255 then (s, some (.refuse .badArgument)) else s.enrolEntry p (byteAt args 1) r
    | _, _ => (s, some (.refuse .badArgument))

/-- ENROL (R137, R152), with the level of ENROL_EN at the execution event (R184). -/
def execEnrol (dt : Nat) (enrolEn : Bool) (s : State) : Host.Outcome State Fault Refusal :=
  .next (((s.elapse dt).withEnrolEn enrolEn).agentRow (some .enrol) State.cmdEnrol)

/-- R153: the entry is removed with its right, tags and cached response. -/
def State.dismissEntry (s : State) (p : Port) (a : Byte) : State × Option Answer :=
  match s.manager p a with
  | none => (s, some (.refuse .notFound))
  | some e =>
    if e.right = .write ∧ s.noOtherWriter p a = true ∧ s.pins.enrolEn = false then
      (s, some (.refuse .lastManager))
    else
      ({ s with managers := s.managers.filter fun x => !x.is p a }.dropSession p a, some (.okWith []))

def State.cmdDismiss (s : State) (_ : MgmtSlot) (args : List Byte) : State × Option Answer :=
  match portOfCode (byteAt args 0) with
  | some p =>
    if byteAt args 1 = 255 then (s, some (.refuse .badArgument)) else s.dismissEntry p (byteAt args 1)
  | none => (s, some (.refuse .badArgument))

/-- DISMISS (R153), with the level of ENROL_EN at the execution event (R184). -/
def execDismiss (dt : Nat) (enrolEn : Bool) (s : State) : Host.Outcome State Fault Refusal :=
  .next (((s.elapse dt).withEnrolEn enrolEn).agentRow (some .dismiss) State.cmdDismiss)

/-! ### The edit session (R41 to R46, R154 to R158) -/

/-- R42: the standby bank under a start mode, the active bank being `live`. -/
def StartMode.apply : StartMode → Bank → Bank → Bank
  | .keep, _, b => b
  | .copy, live, _ => { live with hits := Vector.replicate 128 0 }
  | .empty, _, _ => powerOnBank

/-- R41: the session opens or is refreshed for the requester, and the start mode is applied. -/
def State.openSession (s : State) (m : MgmtSlot) (secs : Nat) (mode : StartMode) : State :=
  { s with session := some ⟨m.port, m.requester, secs, s.now + secs * 1000⟩ }.modBank s.standby
    (mode.apply s.activeBank)

/-- R41: a lease of 0 means 30 s. -/
def leaseOf (b : Byte) : Nat := if b = 0 then 30 else b.toNat

def State.cmdOpenEdit (s : State) (m : MgmtSlot) (args : List Byte) : State × Option Answer :=
  match StartMode.ofCode (byteAt args 1) with
  | none => (s, some (.refuse .badArgument))
  | some mode =>
    if 120 < (byteAt args 0).toNat then (s, some (.refuse .badArgument))
    else
      match s.session with
      | some d =>
        if s.ownsSession m.port m.requester then
          (s.openSession m (leaseOf (byteAt args 0)) mode,
            some (.okWith [s.standby.code, BitVec.ofNat 8 (leaseOf (byteAt args 0))]))
        else (s, some ⟨.sessionHeld, [portCode d.port, d.addr], .none⟩)
      | none =>
        (s.openSession m (leaseOf (byteAt args 0)) mode,
          some (.okWith [s.standby.code, BitVec.ofNat 8 (leaseOf (byteAt args 0))]))

/-- OPEN_EDIT (R41). -/
def execOpenEdit (dt : Nat) (s : State) : Host.Outcome State Fault Refusal :=
  .next ((s.elapse dt).agentRow (some .openEdit) State.cmdOpenEdit)

/-- R43: the lease deadline is a full lease length from now. -/
def State.refreshLease (s : State) : State :=
  { s with session := s.session.map fun d => { d with deadline := s.now + d.leaseSecs * 1000 } }

/-- R45, R155: the entry is replaced whole and its hit count set to 0. -/
def Bank.writeRule (i : Fin 128) (e : RuleEntry) (b : Bank) : Bank :=
  { b with entries := b.entries.set i e, hits := b.hits.set i 0 }

def State.cmdWriteRule (s : State) (m : MgmtSlot) (args : List Byte) : State × Option Answer :=
  if s.ownsSession m.port m.requester then
    if h : (byteAt args 0).toNat < 128 then
      match decodeRule (args.drop 1) with
      | some e =>
        (s.refreshLease.modBank s.standby (Bank.writeRule ⟨(byteAt args 0).toNat, h⟩ e), some (.okWith []))
      | none => (s.refreshLease, some (.refuse .badArgument))
    else (s.refreshLease, some (.refuse .badIndex))
  else (s, some (.refuse .noSession))

/-- WRITE_RULE (R155). -/
def execWriteRule (dt : Nat) (s : State) : Host.Outcome State Fault Refusal :=
  .next ((s.elapse dt).agentRow (some .writeRule) State.cmdWriteRule)

/-- R45, R156: the profile is replaced whole. -/
def Bank.writeProfile (i : Fin 32) (q : Profile) (b : Bank) : Bank := { b with profiles := b.profiles.set i q }

def State.cmdWriteProfile (s : State) (m : MgmtSlot) (args : List Byte) : State × Option Answer :=
  if s.ownsSession m.port m.requester then
    if h : (byteAt args 0).toNat < 32 then
      match decodeProfile (args.drop 1) with
      | some q =>
        (s.refreshLease.modBank s.standby (Bank.writeProfile ⟨(byteAt args 0).toNat, h⟩ q), some (.okWith []))
      | none => (s.refreshLease, some (.refuse .badArgument))
    else (s.refreshLease, some (.refuse .badIndex))
  else (s, some (.refuse .noSession))

/-- WRITE_PROFILE (R156). -/
def execWriteProfile (dt : Nat) (s : State) : Host.Outcome State Fault Refusal :=
  .next ((s.elapse dt).agentRow (some .writeProfile) State.cmdWriteProfile)

/-- R48: the swap: the designation moves, the count rises by 1, wrapping, the session becomes NONE and
commits is raised. -/
def State.swapBanks (s : State) : State :=
  { s with active := s.active.other, commitCount := s.commitCount + 1, session := none }.raiseAgent .commits

/-- R51: a fence timeout of 0 means 500 ms. -/
def fenceTimeoutOf (t : Nat) : Nat := if t = 0 then 500 else t

/-- R48: the range of the fence timeout. -/
def fenceTimeoutValid (t : Nat) : Bool := decide (t = 0) || (decide (10 ≤ t) && decide (t ≤ 5000))

/-- R50, R51: a taken COMMIT, its arguments decoded. A fence whose old set is not empty takes the request's
slot into its holder and answers later. -/
def State.takeCommit (s : State) (m : MgmtSlot) (mode : CommitMode) (timeout : Nat) : State × Option Answer :=
  let s1 := s.swapBanks
  match mode with
  | .swap => (s1, some (.okWith (s1.commitResult 0)))
  | .fence =>
    if s1.oldCount = 0 then (s1, some (.okWith (s1.commitResult 0)))
    else ({ s1 with fence := some ⟨s1.now + fenceTimeoutOf timeout, m⟩ }, none)

def State.cmdCommit (s : State) (m : MgmtSlot) (args : List Byte) : State × Option Answer :=
  if s.ownsSession m.port m.requester = false then (s, some (.refuse .noSession))
  else if s.fence.isSome then (s, some (.refuse .fencePending))
  else
    match CommitMode.ofCode (byteAt args 0) with
    | some mode =>
      if fenceTimeoutValid (be16At args 1) then s.takeCommit m mode (be16At args 1)
      else (s, some (.refuse .badArgument))
    | none => (s, some (.refuse .badArgument))

/-- COMMIT (R48, R157). -/
def execCommit (dt : Nat) (s : State) : Host.Outcome State Fault Refusal :=
  .next ((s.elapse dt).agentRow (some .commit) State.cmdCommit)

def State.cmdAbandon (s : State) (m : MgmtSlot) (_ : List Byte) : State × Option Answer :=
  if s.ownsSession m.port m.requester then ({ s with session := none }, some (.okWith []))
  else (s, some (.refuse .noSession))

/-- ABANDON (R158). -/
def execAbandon (dt : Nat) (s : State) : Host.Outcome State Fault Refusal :=
  .next ((s.elapse dt).agentRow (some .abandon) State.cmdAbandon)

/-! ### Reading the rule set (R150, R159 to R161) -/

/-- R150: a run of `count` positions from `first`, at most `most` of them, the last position being `last`. -/
def runValid (first count most last : Nat) : Bool :=
  decide (1 ≤ count) && decide (count ≤ most) && decide (first + count ≤ last + 1)

/-- R150: the positions of a run, in index order. -/
def runOf {α : Type} (xs : List α) (first count : Nat) : List α := (xs.drop first).take count

/-- R57: ACTIVE and STANDBY are resolved at the execution event. -/
def State.selected (s : State) : BankSelector → BankName
  | .active => s.active
  | .standby => s.standby

/-- R159: an entry as READ-RULE returns it, with its hit count. -/
def Bank.ruleRecords (b : Bank) : List (List Byte) :=
  (b.entries.toList.zip b.hits.toList).map fun x => encodeRule x.1 ++ be32 x.2

def State.cmdReadRule (s : State) (_ : MgmtSlot) (args : List Byte) : State × Option Answer :=
  match BankSelector.ofCode (byteAt args 0) with
  | none => (s, some (.refuse .badArgument))
  | some b =>
    if runValid (byteAt args 1).toNat (byteAt args 2).toNat 8 127 then
      (s, some (.okWith ((s.selected b).code ::
        (runOf (s.bank (s.selected b)).ruleRecords (byteAt args 1).toNat (byteAt args 2).toNat).flatten)))
    else (s, some (.refuse .badIndex))

/-- READ_RULE (R159). -/
def execReadRule (dt : Nat) (s : State) : Host.Outcome State Fault Refusal :=
  .next ((s.elapse dt).agentRow (some .readRule) State.cmdReadRule)

def State.cmdReadProfile (s : State) (_ : MgmtSlot) (args : List Byte) : State × Option Answer :=
  match BankSelector.ofCode (byteAt args 0) with
  | none => (s, some (.refuse .badArgument))
  | some b =>
    if runValid (byteAt args 1).toNat (byteAt args 2).toNat 16 31 then
      (s, some (.okWith ((s.selected b).code ::
        (runOf ((s.bank (s.selected b)).profiles.toList.map encodeProfile) (byteAt args 1).toNat
          (byteAt args 2).toNat).flatten)))
    else (s, some (.refuse .badIndex))

/-- READ_PROFILE (R160). -/
def execReadProfile (dt : Nat) (s : State) : Host.Outcome State Fault Refusal :=
  .next ((s.elapse dt).agentRow (some .readProfile) State.cmdReadProfile)

/-- R161: the hit counts of a run set to 0. -/
def Bank.zeroHits (first count : Nat) (b : Bank) : Bank :=
  { b with
    hits := Vector.ofFn fun (i : Fin 128) => if first ≤ i.val ∧ i.val < first + count then 0 else b.hits[i] }

def State.cmdReadHits (s : State) (_ : MgmtSlot) (args : List Byte) : State × Option Answer :=
  match BankSelector.ofCode (byteAt args 0), flagOfCode (byteAt args 3) with
  | some b, some zero =>
    if runValid (byteAt args 1).toNat (byteAt args 2).toNat 48 127 then
      (if zero then s.modBank (s.selected b) (Bank.zeroHits (byteAt args 1).toNat (byteAt args 2).toNat) else s,
        some (.okWith ((s.selected b).code ::
          (runOf ((s.bank (s.selected b)).hits.toList.map be32) (byteAt args 1).toNat
            (byteAt args 2).toNat).flatten)))
    else (s, some (.refuse .badIndex))
  | _, _ => (s, some (.refuse .badArgument))

/-- READ_HITS (R161). -/
def execReadHits (dt : Nat) (s : State) : Host.Outcome State Fault Refusal :=
  .next ((s.elapse dt).agentRow (some .readHits) State.cmdReadHits)

/-! ### Meters (R35, R37, R162, R163) -/

def State.cmdSetMeter (s : State) (_ : MgmtSlot) (args : List Byte) : State × Option Answer :=
  if h : (byteAt args 0).toNat < 16 then
    if 1 ≤ be16At args 5 ∧ be16At args 5 ≤ 1000 then
      ({ s with
          meters := s.meters.set (byteAt args 0).toNat
            ⟨be16At args 1, be16At args 3, be16At args 5, be16At args 1, s.now⟩ h },
        some (.okWith []))
    else (s, some (.refuse .badArgument))
  else (s, some (.refuse .badIndex))

/-- SET_METER (R162). -/
def execSetMeter (dt : Nat) (s : State) : Host.Outcome State Fault Refusal :=
  .next ((s.elapse dt).agentRow (some .setMeter) State.cmdSetMeter)

/-- R163: a meter as READ-METER returns it. -/
def Meter.bytes (m : Meter) : List Byte := be16 m.capacity ++ be16 m.refill ++ be16 m.interval ++ be16 m.tokens

def State.cmdReadMeter (s : State) (_ : MgmtSlot) (args : List Byte) : State × Option Answer :=
  if runValid (byteAt args 0).toNat (byteAt args 1).toNat 16 15 then
    (s, some (.okWith
      (runOf (s.meters.toList.map Meter.bytes) (byteAt args 0).toNat (byteAt args 1).toNat).flatten))
  else (s, some (.refuse .badIndex))

/-- READ_METER (R163). -/
def execReadMeter (dt : Nat) (s : State) : Host.Outcome State Fault Refusal :=
  .next ((s.elapse dt).agentRow (some .readMeter) State.cmdReadMeter)

/-! ### Ports (R164 to R166) -/

/-- R164: the parameter block of SET-PORT's arguments. -/
def paramBlock (args : List Byte) : ParamBlock := ⟨be16At args 1, args.drop 3⟩

/-- R165: the fields given are written, immediate ones in force and staged ones staged. -/
def PortState.applyBlock (b : ParamBlock) (x : PortState) : PortState :=
  { x with params := b.params x.params, staged := b.settings x.staged }

def State.cmdSetPort (s : State) (_ : MgmtSlot) (args : List Byte) : State × Option Answer :=
  match portOfCode (byteAt args 0) with
  | none => (s, some (.refuse .badArgument))
  | some p =>
    if (paramBlock args).inRange = true ∧ ((paramBlock args).params (s.port p).params).gapsOrdered = true then
      (s.modPort p (PortState.applyBlock (paramBlock args)), some (.okWith []))
    else (s, some (.refuse .badArgument))

/-- SET_PORT (R164). -/
def execSetPort (dt : Nat) (s : State) : Host.Outcome State Fault Refusal :=
  .next ((s.elapse dt).agentRow (some .setPort) State.cmdSetPort)

/-- R166: the 28 bytes of READ-PORT. -/
def State.portBytes (s : State) (p : Port) : List Byte :=
  portCode p :: (encodeParams (s.port p).params ++
    [(s.port p).inForce.rate.code, (s.port p).staged.rate.code, (s.port p).inForce.own, (s.port p).staged.own,
      BitVec.ofNat 8 (s.port p).inForce.queueLimit, BitVec.ofNat 8 (s.port p).staged.queueLimit])

def State.cmdReadPort (s : State) (_ : MgmtSlot) (args : List Byte) : State × Option Answer :=
  match portOfCode (byteAt args 0) with
  | none => (s, some (.refuse .badArgument))
  | some p => (s, some (.okWith (s.portBytes p)))

/-- READ_PORT (R166). -/
def execReadPort (dt : Nat) (s : State) : Host.Outcome State Fault Refusal :=
  .next ((s.elapse dt).agentRow (some .readPort) State.cmdReadPort)

/-! ### Observation (R167, R168) -/

/-- R167: the counters of a group, in the group's order. -/
def State.groupCounters (s : State) : Group → List Count
  | .rx p => (s.port p).rx.counters.toList
  | .tx p => (s.port p).tx.counters.toList
  | .agent => s.agentCounters.toList

/-- R173: the counters of a group set to 0. -/
def State.zeroGroup (s : State) : Group → State
  | .rx p => s.modRx p fun x => { x with counters := Vector.replicate 18 0 }
  | .tx p => s.modTx p fun x => { x with counters := Vector.replicate 17 0 }
  | .agent => { s with agentCounters := Vector.replicate 11 0 }

def State.cmdReadCounters (s : State) (_ : MgmtSlot) (args : List Byte) : State × Option Answer :=
  match Group.ofCode (byteAt args 0), flagOfCode (byteAt args 1) with
  | some g, some zero =>
    (if zero then s.zeroGroup g else s,
      some (.okWith (byteAt args 0 :: ((s.groupCounters g).map be32).flatten)))
  | _, _ => (s, some (.refuse .badArgument))

/-- READ_COUNTERS (R167). -/
def execReadCounters (dt : Nat) (s : State) : Host.Outcome State Fault Refusal :=
  .next ((s.elapse dt).agentRow (some .readCounters) State.cmdReadCounters)

/-- R76, R182: the 10 bytes of READ-STORE; the request's own slot still stands in the agent queue. -/
def State.storeBytes (s : State) : List Byte :=
  [s.freeCount, s.dataCount, s.mgmtCount, (s.port .A).urgent.length, (s.port .A).normal.length,
    (s.port .B).urgent.length, (s.port .B).normal.length, s.agentQueue.length,
    (if (s.port .A).tx.pos.isSome then 1 else 0) + (if (s.port .B).tx.pos.isSome then 2 else 0),
    (if s.fence.isSome then s.oldCount else 255)].map (BitVec.ofNat 8)

def State.cmdReadStore (s : State) (_ : MgmtSlot) (_ : List Byte) : State × Option Answer :=
  (s, some (.okWith s.storeBytes))

/-- READ_STORE (R168). -/
def execReadStore (dt : Nat) (s : State) : Host.Outcome State Fault Refusal :=
  .next ((s.elapse dt).agentRow (some .readStore) State.cmdReadStore)

/-! ### Restarts (R144, R169, R170) -/

/-- R144: the restart-pending mark rises by 1. -/
def State.raiseMark (s : State) : State := { s with restartPending := s.restartPending + 1 }

def State.cmdRestartPort (s : State) (_ : MgmtSlot) (args : List Byte) : State × Option Answer :=
  match portOfCode (byteAt args 0) with
  | none => (s, some (.refuse .badArgument))
  | some p => (s.raiseMark, some ⟨.ok, [portCode p], .restartPort p⟩)

/-- RESTART_PORT (R169). -/
def execRestartPort (dt : Nat) (s : State) : Host.Outcome State Fault Refusal :=
  .next ((s.elapse dt).agentRow (some .restartPort) State.cmdRestartPort)

def State.cmdRestart (s : State) (_ : MgmtSlot) (_ : List Byte) : State × Option Answer :=
  (s.raiseMark, some ⟨.ok, [], .restart⟩)

/-- RESTART (R170). -/
def execRestart (dt : Nat) (s : State) : Host.Outcome State Fault Refusal :=
  .next ((s.elapse dt).agentRow (some .restart) State.cmdRestart)

/-- UNKNOWN_COMMAND (R180): no command is reached; the refusal here is never asked for. -/
def execUnknownCommand (dt : Nat) (s : State) : Host.Outcome State Fault Refusal :=
  .next ((s.elapse dt).agentRow none fun t _ _ => (t, some (.refuse .unknownCommand)))

end Sys2Proof.Machine
end

