-- ==== Sys2Proof/Machine/Dispatch.lean ====
section
/-! DEFINITION. The dispatch: one arm for each command, each one call of its meaning. -/

namespace Sys2Proof.Machine

def exec (i : Instr) (s : State) : Host.Outcome State Fault Refusal :=
  match i with
  | .powerOnReset straps => Sys2Proof.Machine.execPowerOnReset straps s
  | .frameEnd dt p => Sys2Proof.Machine.execFrameEnd dt p s
  | .replyGapReached dt p => Sys2Proof.Machine.execReplyGapReached dt p s
  | .replySent dt p => Sys2Proof.Machine.execReplySent dt p s
  | .replyCollision dt p k => Sys2Proof.Machine.execReplyCollision dt p k s
  | .replyAbandoned dt p => Sys2Proof.Machine.execReplyAbandoned dt p s
  | .selection dt p => Sys2Proof.Machine.execSelection dt p s
  | .gapReached dt p => Sys2Proof.Machine.execGapReached dt p s
  | .deferExhausted dt p => Sys2Proof.Machine.execDeferExhausted dt p s
  | .sendComplete dt p => Sys2Proof.Machine.execSendComplete dt p s
  | .collision dt p k => Sys2Proof.Machine.execCollision dt p k s
  | .backoffEnd dt p => Sys2Proof.Machine.execBackoffEnd dt p s
  | .noReply dt p => Sys2Proof.Machine.execNoReply dt p s
  | .busyHoldEnd dt p => Sys2Proof.Machine.execBusyHoldEnd dt p s
  | .fenced dt p => Sys2Proof.Machine.execFenced dt p s
  | .meterRefill dt m => Sys2Proof.Machine.execMeterRefill dt m s
  | .leaseLapse dt => Sys2Proof.Machine.execLeaseLapse dt s
  | .fenceTimeout dt => Sys2Proof.Machine.execFenceTimeout dt s
  | .identify dt => Sys2Proof.Machine.execIdentify dt s
  | .enrol dt enrolEn => Sys2Proof.Machine.execEnrol dt enrolEn s
  | .dismiss dt enrolEn => Sys2Proof.Machine.execDismiss dt enrolEn s
  | .openEdit dt => Sys2Proof.Machine.execOpenEdit dt s
  | .writeRule dt => Sys2Proof.Machine.execWriteRule dt s
  | .writeProfile dt => Sys2Proof.Machine.execWriteProfile dt s
  | .commit dt => Sys2Proof.Machine.execCommit dt s
  | .abandon dt => Sys2Proof.Machine.execAbandon dt s
  | .readRule dt => Sys2Proof.Machine.execReadRule dt s
  | .readProfile dt => Sys2Proof.Machine.execReadProfile dt s
  | .readHits dt => Sys2Proof.Machine.execReadHits dt s
  | .setMeter dt => Sys2Proof.Machine.execSetMeter dt s
  | .readMeter dt => Sys2Proof.Machine.execReadMeter dt s
  | .setPort dt => Sys2Proof.Machine.execSetPort dt s
  | .readPort dt => Sys2Proof.Machine.execReadPort dt s
  | .readCounters dt => Sys2Proof.Machine.execReadCounters dt s
  | .readStore dt => Sys2Proof.Machine.execReadStore dt s
  | .restartPort dt => Sys2Proof.Machine.execRestartPort dt s
  | .restart dt => Sys2Proof.Machine.execRestart dt s
  | .unknownCommand dt => Sys2Proof.Machine.execUnknownCommand dt s
  | .byteReceived dt p act => Sys2Proof.Machine.execByteReceived dt p act s

end Sys2Proof.Machine
end

