-- ==== Sys2Proof/Safety.lean ====
section
/-! DEFINITION. What a sound state of the SK412 is: the bounds and relations the manual says hold at all
times. The machine has no fault, so a run is safe when every state of it is sound. -/

namespace Sys2Proof.Machine

/-- R64 to R66, R60: the caps of the frame store. -/
abbrev State.StoreSound (s : State) : Prop :=
  s.dataCount ≤ Config.dataCap ∧ s.mgmtCount ≤ Config.mgmtCap ∧ s.agentQueue.length ≤ Config.agentQueueCap ∧
    s.dataCount + s.mgmtCount ≤ Config.slotCount ∧
    s.dataAt .A ≤ (s.port .A).inForce.queueLimit ∧ s.dataAt .B ≤ (s.port .B).inForce.queueLimit

/-- R59: a slot of kind REQUEST. -/
def Slot.isRequest : Slot → Bool
  | .data _ => false
  | .mgmt m => decide (m.kind = .request)

/-- R59, R61, R62: what each place may hold: requests in the agent queue and the fence holder and nowhere
else, data-origin slots alone in an urgent queue. -/
abbrev PortState.KindsSound (x : PortState) : Prop :=
  (∀ y ∈ x.urgent, y.isData = true) ∧
    ∀ y ∈ x.slots, y.isRequest = false

abbrev State.KindsSound (s : State) : Prop :=
  (s.port .A).KindsSound ∧ (s.port .B).KindsSound ∧ (∀ m ∈ s.agentQueue, m.kind = .request) ∧
    ∀ f ∈ s.fence.toList, f.holder.kind = .request

/-- R109: while the transmit path of a port sends, its receive path is IDLE, so at most one of the two
drives the line. R86: a collision is held only while one of them does. -/
abbrev PortState.DriverSound (x : PortState) : Prop :=
  (x.tx.state.isSending = true → x.rx.state = .idle) ∧
    (x.clash ≠ none → x.tx.state.isSending = true ∨ x.rx.state.isReplying = true)

abbrev State.DriversSound (s : State) : Prop := (s.port .A).DriverSound ∧ (s.port .B).DriverSound

/-- R112: in IDLE the transmit position is empty, in every other state it holds a slot; SELECT is held only
within the selection event. -/
abbrev PortState.PositionSound (x : PortState) : Prop :=
  (x.tx.state = .idle ↔ x.tx.pos = none) ∧ x.tx.state ≠ .select

abbrev State.PositionsSound (s : State) : Prop := (s.port .A).PositionSound ∧ (s.port .B).PositionSound

/-- R27: the values of a meter lie in their ranges, and its tokens between 0 and its capacity. -/
abbrev Meter.Sound (m : Meter) : Prop :=
  m.tokens ≤ m.capacity ∧ m.capacity ≤ 65535 ∧ m.refill ≤ 65535 ∧ 1 ≤ m.interval ∧ m.interval ≤ 1000

abbrev State.MetersSound (s : State) : Prop := ∀ m ∈ s.meters.toList, m.Sound

/-- R40, R47: the owner of an OPEN session is a manager with right WRITE, and its lease length is 1 to 120 s. -/
abbrev State.SessionSound (s : State) : Prop :=
  ∀ d ∈ s.session.toList, (s.manager d.port d.addr).any (fun e => e.right == .write) = true ∧
    1 ≤ d.leaseSecs ∧ d.leaseSecs ≤ 120

/-- R73: a fence that is pending has a non-empty old set. -/
abbrev State.FenceSound (s : State) : Prop := s.fence.isSome = true → 0 < s.oldCount

/-- The slots of both ports' queues and transmit positions that carry a restart trigger. -/
def State.triggerCount (s : State) : Nat :=
  (s.port .A).slots.countP Slot.hasTrigger + (s.port .B).slots.countP Slot.hasTrigger

/-- 08: the restart-pending mark is the number of responses in the store that carry a restart trigger. -/
abbrev State.MarkSound (s : State) : Prop := s.restartPending = s.triggerCount

/-- 08: the restart-pending mark is at most 4. Since admission is closed while it is above 0, it and the
agent queue together hold at most 4. -/
abbrev State.MarkBounded (s : State) : Prop := s.restartPending + s.agentQueue.length ≤ Config.agentQueueCap

/-- R134: at most 6 entries, no two with the same port and address, each with an address 0 to 254; and no
request of the agent queue comes from a station 255, so none can become an entry. -/
abbrev State.ManagersSound (s : State) : Prop :=
  s.managers.length ≤ Config.managerCap ∧ (s.managers.map fun e => (e.port, e.addr)).Nodup ∧
    (∀ e ∈ s.managers, e.addr ≠ 255) ∧ ∀ m ∈ s.agentQueue, m.requester ≠ 255

/-- R82, R129: the immediate parameters lie in their ranges and the gaps keep their order. -/
abbrev Params.Sound (q : Params) : Prop :=
  16 ≤ q.replyWait ∧ q.replyWait ≤ 200 ∧ 24 ≤ q.urgentGap ∧ q.urgentGap ≤ 240 ∧ 32 ≤ q.normalGap ∧
    q.normalGap ≤ 250 ∧ q.replyWait < q.urgentGap ∧ q.urgentGap < q.normalGap ∧
    6 ≤ q.window ∧ q.window ≤ 32 ∧ q.retryLimit ≤ 15 ∧ q.busyLimit ≤ 15 ∧ 1 ≤ q.busyHold ∧ q.busyHold ≤ 255 ∧
    q.deferLimit ≤ 2000 ∧ q.ageLimit ≤ 60000 ∧ q.dupWindow ≤ 10000

/-- R66, R91: the staged parameters lie in their ranges. -/
abbrev Settings.Sound (q : Settings) : Prop := q.own ≠ 255 ∧ 4 ≤ q.queueLimit ∧ q.queueLimit ≤ 30

abbrev PortState.ParamsSound (x : PortState) : Prop := x.params.Sound ∧ x.inForce.Sound ∧ x.staged.Sound

abbrev State.ParamsSound (s : State) : Prop := (s.port .A).ParamsSound ∧ (s.port .B).ParamsSound

/-- A sound state: every relation above. -/
abbrev State.Sound (s : State) : Prop :=
  s.StoreSound ∧ s.KindsSound ∧ s.DriversSound ∧ s.PositionsSound ∧ s.MetersSound ∧ s.SessionSound ∧
    s.FenceSound ∧ s.MarkSound ∧ s.MarkBounded ∧ s.ManagersSound ∧ s.ParamsSound

/-! ### The terms the statements are made in -/

/-- The microseconds that pass before a command's event (log entry 1). -/
def dtOf : Instr → Nat
  | .powerOnReset _ => 0
  | .frameEnd dt _ | .replyGapReached dt _ | .replySent dt _ | .replyCollision dt _ _ | .replyAbandoned dt _
  | .selection dt _ | .gapReached dt _ | .deferExhausted dt _ | .sendComplete dt _ | .collision dt _ _
  | .backoffEnd dt _ | .noReply dt _ | .busyHoldEnd dt _ | .fenced dt _ | .meterRefill dt _ | .leaseLapse dt
  | .fenceTimeout dt | .identify dt | .enrol dt _ | .dismiss dt _ | .openEdit dt | .writeRule dt
  | .writeProfile dt | .commit dt | .abandon dt | .readRule dt | .readProfile dt | .readHits dt | .setMeter dt
  | .readMeter dt | .setPort dt | .readPort dt | .readCounters dt | .readStore dt | .restartPort dt
  | .restart dt | .unknownCommand dt | .byteReceived dt _ _ => dt

/-- The command is POWER_ON_RESET. -/
def isPowerOn : Instr → Bool
  | .powerOnReset _ => true
  | _ => false

/-- The row of the agent a command is: the management command it carries out, or the row of the requests that
name no command. -/
def rowOf : Instr → Option (Option Command)
  | .identify _ => some (some .identify)
  | .enrol _ _ => some (some .enrol)
  | .dismiss _ _ => some (some .dismiss)
  | .openEdit _ => some (some .openEdit)
  | .writeRule _ => some (some .writeRule)
  | .writeProfile _ => some (some .writeProfile)
  | .commit _ => some (some .commit)
  | .abandon _ => some (some .abandon)
  | .readRule _ => some (some .readRule)
  | .readProfile _ => some (some .readProfile)
  | .readHits _ => some (some .readHits)
  | .setMeter _ => some (some .setMeter)
  | .readMeter _ => some (some .readMeter)
  | .setPort _ => some (some .setPort)
  | .readPort _ => some (some .readPort)
  | .readCounters _ => some (some .readCounters)
  | .readStore _ => some (some .readStore)
  | .restartPort _ => some (some .restartPort)
  | .restart _ => some (some .restart)
  | .unknownCommand _ => some none
  | _ => none

/-- The level of ENROL_EN that a command brings, or the one the pin has (R184). -/
def pinsAfter (c : Instr) (q : Pins) : Pins :=
  match c with
  | .enrol _ en | .dismiss _ en => { q with enrolEn := en }
  | _ => q

/-- A counter of a port or of the agent. -/
def State.rxCount (s : State) (p : Port) (c : RxCounter) : Count := (s.port p).rx.counters[c.index]
def State.txCount (s : State) (p : Port) (c : TxCounter) : Count := (s.port p).tx.counters[c.index]
def State.agentCount (s : State) (c : AgentCounter) : Count := s.agentCounters[c.index]

/-- A group with its counters of `cs` raised by 1, each in turn. -/
def raiseAll {k : Nat} {α : Type} (index : α → Fin k) (cs : List α) (v : Vector Count k) : Vector Count k :=
  cs.foldl (fun w c => raiseAt w (index c) 1) v

/-- The request at the head of the agent queue is `m`, with the payload tag, command code, arguments. -/
abbrev State.Heads (s : State) (m : MgmtSlot) (tag code : Byte) (args : List Byte) : Prop :=
  s.agentQueue.head? = some m ∧ m.frame.payload = tag :: code :: args

/-- R135: the right the requester holds, if it is a manager. -/
def State.rightOf (s : State) (m : MgmtSlot) : Option Right := (s.manager m.port m.requester).map (·.right)

/-- R139, step 1: the request is no replay. -/
abbrev State.Fresh (s : State) (m : MgmtSlot) (tag : Byte) : Prop :=
  tag = 0 ∨ ((s.manager m.port m.requester).all fun e => e.last.all fun r => r.1 != tag) = true

/-- The record of a response with status OK, and of a refusal (R180). -/
def okRecord (tag code : Byte) (result : List Byte) : List Byte :=
  [tag, code, 0, BitVec.ofNat 8 result.length] ++ result

def refusalRecord (tag code : Byte) (st : Status) : List Byte := [tag, code, st.code, 0]

/-- R141: the response slot that answers request `m` with a record, from a port whose own address is `own`. -/
def responseSlot (m : MgmtSlot) (own : Byte) (record : List Byte) (t : Trigger) : Slot :=
  .mgmt
    { kind := .response
      frame :=
        { dst := m.requester, src := own, type := .mgmt, urgent := false, seq := 0, cls := 0, payload := record }
      port := m.port
      requester := m.requester
      trigger := t }

/-- R142: the managers after a fresh response to request `m` with this tag. -/
def managersAnswered (ms : List Manager) (m : MgmtSlot) (tag : Byte) (record : List Byte) : List Manager :=
  ms.map fun e =>
    if tag ≠ 0 ∧ e.port = m.port ∧ e.addr = m.requester then
      { e with
        pendingTag := if e.pendingTag = some tag then none else e.pendingTag
        last := some (tag, record) }
    else e

/-- R68, R138, R141, R142: the state after an execution that does nothing but answer request `m`, the head of
the agent queue: the response stands at the tail of the request port's normal queue. -/
def State.answered (s : State) (dt : Nat) (m : MgmtSlot) (tag : Byte) (record : List Byte) (t : Trigger) : State :=
  { s.modPort m.port fun x => { x with normal := x.normal ++ [responseSlot m x.inForce.own record t] } with
    clock := s.clock + dt
    agentQueue := s.agentQueue.tail
    agentCounters := raiseAll AgentCounter.index [.requestsTaken] s.agentCounters
    managers := managersAnswered s.managers m tag record }

/-- R80, R96: a frame has been assembled at port `p`, and `dt` later idle time has reached 3 bt. -/
abbrev State.Ends (s : State) (dt : Nat) (p : Port) : Prop :=
  (s.port p).rx.state = .receiving ∧ 3 * s.bitTime p ≤ s.clock + dt - s.lineEnd p

/-- Frame `f` ends at port `p`, passes screening, and the port's transmit path awaits no reply. -/
abbrev State.EndsGood (s : State) (dt : Nat) (p : Port) (f : Frame) : Prop :=
  s.Ends dt p ∧ s.screened p = .good f ∧ (s.port p).tx.state.isAwaiting = false

/-- R97: frame `f` ends at port `p` and is one that is walked. -/
abbrev State.EndsWalked (s : State) (dt : Nat) (p : Port) (f : Frame) : Prop :=
  s.EndsGood dt p f ∧ f.type.isReply = false ∧ f.dst ≠ (s.port p).inForce.own

/-- R105: the receive state after a frame that is answered with `t` when it is unicast. -/
def replyState (f : Frame) (t : ReplyType) : RxState :=
  if f.dst = 255 then .idle else .oweReply { type := t, dst := f.src, src := f.dst, seq := f.seq }

/-- The state after a frame end at port `p` that raises receive counters and leaves the receive path in
state `r`, and does nothing else. -/
def State.frameDone (s : State) (dt : Nat) (p : Port) (cs : List RxCounter) (r : RxState) : State :=
  (s.elapse dt).modPort p fun x =>
    { x with
      rx := { x.rx with state := r, inWait := false, counters := raiseAll RxCounter.index cs x.rx.counters } }

/-- R125: a transmit path that has ended its frame, with counters raised. -/
def TxPath.ended (x : TxPath) (cs : List TxCounter) : TxPath :=
  { x with
    state := .idle
    pos := none
    attempts := 0
    collisions := 0
    busies := 0
    counters := raiseAll TxCounter.index cs x.counters }

/-! ### What the end of a frame leaves (R70 to R73, R125, R126) -/

/-- R52, R73: slot `x` has just been freed. A data-origin slot that was old, the last of the old set of a pending
fence, ends that fence: the holder slot becomes the COMMIT's response with status OK and a discard count of 0. -/
def State.slotFreed (s : State) (x : Slot) : State :=
  match s.fence, x with
  | some f, .data d =>
    if d.epoch ≠ s.commitCount ∧ s.oldCount = 0 then
      let record := okRecord f.holder.tag f.holder.code (s.active.code :: (be32 s.commitCount ++ [0]))
      { s.modPort f.holder.port fun y =>
          { y with normal := y.normal ++ [responseSlot f.holder y.inForce.own record .none] } with
        fence := none
        managers := managersAnswered s.managers f.holder f.holder.tag record }
    else s
  | _, _ => s

/-- R72, R125: slot `x`, which was in port `p`'s transmit position, is freed, with transmit counters raised. -/
def State.ended (s : State) (p : Port) (x : Slot) (cs : List TxCounter) : State :=
  (s.modPort p fun y => { y with tx := y.tx.ended cs }).slotFreed x

/-- R70: the slots whose failure makes an undelivered notice. -/
abbrev DataSlot.Noticed (d : DataSlot) : Prop :=
  d.kind = .forward ∧ d.notify = true ∧ d.origDst ≠ 255 ∧ d.frame.type ≠ .undelivered

/-- R70, R126: the notice that slot `d` becomes, with a reason code and an attempts field. -/
def State.noticeOf (s : State) (d : DataSlot) (reason : Byte) (attempts : Nat) : Slot :=
  .data
    { d with
      kind := .notice
      frame :=
        { dst := d.origSrc, src := (s.port d.ingress).inForce.own, type := .undelivered, urgent := false, seq := 0,
          cls := 0, payload := [d.origDst, BitVec.ofNat 8 d.origCls.toNat, reason, BitVec.ofNat 8 attempts] }
      arrival := s.now
      egress := d.ingress
      queue := .normal
      notify := false
      mark := false }

/-- R70, R71, R125, R126: slot `x`, which was in port `p`'s transmit position, fails, with transmit counters
raised. A slot of which a notice is due becomes one at the tail of its ingress port's normal queue when that port is
below its queue limit without it, and is dropped, and so freed, otherwise; any other slot is freed. -/
def State.failed (s : State) (p : Port) (x : Slot) (reason : Byte) (attempts : Nat) (cs : List TxCounter) : State :=
  match x with
  | .data d =>
    if d.Noticed then
      let left (c : TxCounter) := s.modPort p fun y => { y with tx := y.tx.ended (cs ++ [c]) }
      if (left .noticesMade).dataAt d.ingress < (s.port d.ingress).inForce.queueLimit then
        (left .noticesMade).modPort d.ingress fun y =>
          { y with normal := y.normal ++ [s.noticeOf d reason attempts] }
      else s.ended p x (cs ++ [.noticesDropped])
    else s.ended p x cs
  | .mgmt _ => s.ended p x cs

/-- R98: frame `f` is the awaited reply to `sent`. -/
abbrev Frame.Answers (f sent : Frame) : Prop :=
  (f.type = .ack ∨ f.type = .busy ∨ f.type = .refuse) ∧ f.dst = sent.src ∧ f.src = sent.dst ∧ f.seq = sent.seq

/-- R122: the counters that a delivery raises, by the frame's collision count. -/
def deliveredCounts (collisions : Nat) : List TxCounter :=
  if collisions = 0 then [.delivered]
  else if collisions = 1 then [.delivered, .singleCollision]
  else [.delivered, .multiCollision]

/-- R117 to R119, R122 to R124, R127: command `c` is an event in which the response `m` in port `p`'s transmit position
reaches a terminal outcome, delivery or failure; `rx` and `tx` are the counters of the port that the outcome raises. -/
inductive State.ResponseEnds (s : State) (p : Port) (m : MgmtSlot) :
    Instr → List RxCounter → List TxCounter → Prop
  | deferExhausted (dt gap start limit : Nat) :
    (s.port p).tx.state = .defer gap start limit → limit ≠ 0 → limit < (s.clock + dt) / 1000 - start →
    s.ResponseEnds p m (.deferExhausted dt p) [] [.deferExhausted]
  | lastCollision (dt k window start : Nat) :
    (s.port p).tx.state = .sending window start → (s.port p).clash = some k →
    start + k * 10 * s.bitTime p ≤ s.clock + dt → k ≤ window →
    (s.port p).params.retryLimit ≤ (s.port p).tx.attempts →
    s.ResponseEnds p m (.collision dt p k) [] [.collisions, .retryExhausted]
  | lateCollision (dt k window start : Nat) :
    (s.port p).tx.state = .sending window start → (s.port p).clash = some k →
    start + k * 10 * s.bitTime p ≤ s.clock + dt → window < k →
    s.ResponseEnds p m (.collision dt p k) [] [.lateCollision]
  | noReply (dt wait : Nat) :
    (s.port p).tx.state = .awaitReply wait → wait * s.bitTime p ≤ s.clock + dt - s.lineEnd p →
    ¬((s.port p).rx.state = .receiving ∧ (s.port p).rx.inWait = true) →
    (s.port p).params.retryLimit ≤ (s.port p).tx.attempts →
    s.ResponseEnds p m (.noReply dt p) [] [.noReply, .retryExhausted]
  | otherFrame (dt wait : Nat) :
    s.Ends dt p → (s.port p).rx.inWait = true → (s.port p).tx.state = .awaitReply wait →
    (∀ f, s.screened p = .good f → ¬f.Answers m.frame) →
    (s.port p).params.retryLimit ≤ (s.port p).tx.attempts →
    s.ResponseEnds p m (.frameEnd dt p) [] [.noReply, .retryExhausted]
  | delivered (dt wait : Nat) (f : Frame) :
    s.Ends dt p → (s.port p).rx.inWait = true → (s.port p).tx.state = .awaitReply wait →
    s.screened p = .good f → f.Answers m.frame → f.type = .ack →
    s.ResponseEnds p m (.frameEnd dt p) [.rxGood] (deliveredCounts (s.port p).tx.collisions)
  | busyExhausted (dt wait : Nat) (f : Frame) :
    s.Ends dt p → (s.port p).rx.inWait = true → (s.port p).tx.state = .awaitReply wait →
    s.screened p = .good f → f.Answers m.frame → f.type = .busy →
    (s.port p).params.busyLimit ≤ (s.port p).tx.busies →
    s.ResponseEnds p m (.frameEnd dt p) [.rxGood] [.busyReceived, .busyExhausted]
  | refused (dt wait : Nat) (f : Frame) :
    s.Ends dt p → (s.port p).rx.inWait = true → (s.port p).tx.state = .awaitReply wait →
    s.screened p = .good f → f.Answers m.frame → f.type = .refuse →
    s.ResponseEnds p m (.frameEnd dt p) [.rxGood] [.refusedReceived]

/-- R11, R13: the matching entries in index order, up to the first with chain STOP and with it. -/
def Bank.visited (b : Bank) (p : Port) (f : Frame) : List (Fin 128) :=
  let hits := (List.finRange 128).filter fun i => b.entries[i].matches p f
  let goesOn (i : Fin 128) : Bool := decide (b.entries[i].chain = .continue)
  hits.takeWhile goesOn ++ (hits.dropWhile goesOn).take 1

end Sys2Proof.Machine
end

