-- ==== Sys2Proof/Certificates/Slice0/Obligations.lean ====
section
/-! DEFINITION. The statements about the SK412, for the provers. Each docstring names the rules of spec/ that it
formalises; OBLIGATIONS.json lists them with the sentences they rest on. -/

open Sys2Proof Sys2Proof.Machine

/-! ### The step and the reset -/

/-- A step takes the command at the front of the queue and runs it on the state with the queue's rest. -/
def Obligations.StepRunsFrontCommand : Prop :=
  ∀ (c : Instr) (rest : List Instr) (s : State), s.pending = c :: rest → step s = exec c { s with pending := rest }

/-- The model's choice (log entry 2): on an empty queue one microsecond passes and nothing else changes. -/
def Obligations.EmptyQueuePassesOneMicrosecond : Prop :=
  ∀ s : State, s.pending = [] → step s = .next { s with clock := s.clock + 1 }

/-- R183, R8, R29, R38, R75, R82, R90, R91, R94, R129 to R131, R147, R175: what power-on reset leaves. That the
level of ENROL_EN and the queue of commands stay as they are is the model's choice (log entry 3): both lie outside
the part. -/
def Obligations.PowerOnResetTakesPowerOnValues : Prop :=
  ∀ (straps : Straps) (s : State), ∃ t, exec (.powerOnReset straps) s = .next t ∧
    t.clock = 0 ∧ t.pins = { straps := straps, enrolEn := s.pins.enrolEn } ∧ t.pending = s.pending ∧
    (∀ p : Port,
      let oa := match p with | .A => straps.oaA | .B => straps.oaB
      let rate := match p with | .A => straps.rateA | .B => straps.rateB
      let x := t.port p
      x.inForce.own.toNat = (if oa.toNat = 31 then 254 else 224 + oa.toNat) ∧
      x.inForce.rate.bitTime = (if rate.toNat = 0 then 16 else if rate.toNat = 1 then 4 else 1) ∧
      x.inForce.queueLimit = 24 ∧ x.staged = x.inForce ∧
      x.params = { replyWait := 40, urgentGap := 56, normalGap := 72, window := 12, retryLimit := 7,
                   ladder := #v[1, 2, 4, 8, 16, 32, 64, 128], busyLimit := 4, busyHold := 5, deferLimit := 100,
                   ageLimit := 1000, dupWindow := 2000 } ∧
      x.urgent = [] ∧ x.normal = [] ∧ x.tx.state = .idle ∧ x.tx.pos = none ∧
      x.tx.attempts = 0 ∧ x.tx.collisions = 0 ∧ x.tx.busies = 0 ∧
      (∀ i : Fin 255, x.tx.seqTable[i] = 0 ∧ x.rx.filter[i] = none) ∧
      x.rx.state = .idle ∧ x.rx.buffer = [] ∧ x.rx.count = 0 ∧ x.rx.lastSent = none ∧ x.clash = none ∧
      (∀ c, t.rxCount p c = 0) ∧ ∀ c, t.txCount p c = 0) ∧
    (∀ n : BankName,
      (∀ i : Fin 128, (t.bank n).hits[i] = 0 ∧
        (t.bank n).entries[i] =
          { valid := false, ingress := .either, types := ⟨true, false, false⟩, dst := ⟨0, 0⟩, src := ⟨0, 0⟩,
            classes := 255, oneShot := .none, chain := .stop, profile := 0, meter := none, dstRewrite := none,
            srcRewrite := .absent }) ∧
      ∀ i : Fin 32, (t.bank n).profiles[i] =
        { disposition := .drop, egress := .other, queue := .asReceived, policy := .drop, notify := false,
          clsRewrite := none }) ∧
    t.active = .X ∧ t.commitCount = 0 ∧ t.session = none ∧ t.fence = none ∧
    (∀ i : Fin 16, t.meters[i] = { capacity := 0, refill := 0, interval := 100, tokens := 0, start := 0 }) ∧
    t.agentQueue = [] ∧ t.freeCount = 32 ∧ t.managers = [] ∧ t.restartPending = 0 ∧ ∀ c, t.agentCount c = 0

/-- The state after reset is sound. -/
def Obligations.ResetIsSound : Prop := State.reset.Sound

/-! ### What every step keeps -/

/-- R60, R64 to R66: the caps of the frame store: 30 data-origin slots, 6 of management origin, 4 requests in
the agent queue, 32 slots in all, and for each port its queue limit in force. -/
def Obligations.StepKeepsStoreCaps : Prop :=
  ∀ s t : State, s.StoreSound → step s = .next t → t.StoreSound

/-- R59, R61 to R63, R112: requests stand in the agent queue and the fence holder alone, urgent queues hold
data-origin slots alone, and a transmit path is IDLE exactly while its position is empty. -/
def Obligations.StepKeepsPlaces : Prop :=
  ∀ s t : State, s.KindsSound ∧ s.PositionsSound → step s = .next t → t.KindsSound ∧ t.PositionsSound

/-- R109, R86: while a transmit path sends, the receive path of its port is IDLE, so that at most one of the two
drives the line; and a collision is held only while one of them does. -/
def Obligations.StepKeepsOneDriver : Prop :=
  ∀ s t : State, s.DriversSound → step s = .next t →
    t.DriversSound ∧ ∀ p, ¬((t.port p).tx.state.isSending = true ∧ (t.port p).rx.state.isReplying = true)

/-- R51 to R53, R73: a fence that is pending has a non-empty old set. -/
def Obligations.StepKeepsFenceNonEmpty : Prop :=
  ∀ s t : State, s.PositionsSound ∧ s.FenceSound → step s = .next t → t.FenceSound

/-- R144 to R147: the restart-pending mark is the number of slots that carry a restart trigger, and with the
agent queue it holds at most 4. -/
def Obligations.StepKeepsRestartMark : Prop :=
  ∀ s t : State, s.PositionsSound ∧ s.MarkSound ∧ s.MarkBounded → step s = .next t → t.MarkSound ∧ t.MarkBounded

/-- R40, R47, R134: the manager table holds at most 6 entries, no two of one station, and the owner of an OPEN
session is an entry with right WRITE. -/
def Obligations.StepKeepsManagersAndOwner : Prop :=
  ∀ s t : State, s.ManagersSound ∧ s.SessionSound → step s = .next t → t.ManagersSound ∧ t.SessionSound

/-- R27, R66, R82, R129: the tokens of a meter lie between 0 and its capacity, and the parameters of a port in
their ranges, with the gaps in their order. -/
def Obligations.StepKeepsRanges : Prop :=
  ∀ s t : State, s.MetersSound ∧ s.ParamsSound → step s = .next t → t.MetersSound ∧ t.ParamsSound

/-! ### Rules of the whole part -/

/-- R38, R48: the active designation and the commit count change together, at a commit's swap, and at no other
event; the swap ends the session. -/
def Obligations.DesignationMovesOnlyAtCommit : Prop :=
  ∀ (c : Instr) (s t : State), isPowerOn c = false → exec c s = .next t →
    (t.active = s.active ∧ t.commitCount = s.commitCount) ∨
    (rowOf c = some (some .commit) ∧ t.active = s.active.other ∧ t.commitCount = s.commitCount + 1 ∧
      t.session = none)

/-- R3, R4, R7: the standby bank changes only by OPEN-EDIT, WRITE-RULE, WRITE-PROFILE and READ-HITS; the active
bank only by READ-HITS, which touches hit counts alone, and by a frame end, which keeps the profiles, turns ARMED
entries SPENT and raises hit counts by 1. -/
def Obligations.BanksChangeOnlyByTheirEvents : Prop :=
  ∀ (c : Instr) (s t : State), isPowerOn c = false → exec c s = .next t →
    (t.bank s.standby = s.bank s.standby ∨
      rowOf c = some (some .openEdit) ∨ rowOf c = some (some .writeRule) ∨ rowOf c = some (some .writeProfile) ∨
      rowOf c = some (some .readHits)) ∧
    (t.bank s.active = s.bank s.active ∨
      (rowOf c = some (some .readHits) ∧ (t.bank s.active).entries = (s.bank s.active).entries ∧
        (t.bank s.active).profiles = (s.bank s.active).profiles ∧
        ∀ i : Fin 128, (t.bank s.active).hits[i] = (s.bank s.active).hits[i] ∨ (t.bank s.active).hits[i] = 0) ∨
      ((∃ dt p, c = .frameEnd dt p) ∧ (t.bank s.active).profiles = (s.bank s.active).profiles ∧
        ∀ i : Fin 128,
          ((t.bank s.active).entries[i] = (s.bank s.active).entries[i] ∧
            (t.bank s.active).hits[i] = (s.bank s.active).hits[i]) ∨
          ((t.bank s.active).entries[i] =
              (if (s.bank s.active).entries[i].oneShot = .armed then
                { (s.bank s.active).entries[i] with oneShot := .spent } else (s.bank s.active).entries[i]) ∧
            (t.bank s.active).hits[i] = satAdd (s.bank s.active).hits[i] 1)))

/-- R134, R147: the ports, addresses and rights of the manager table change only by ENROL and DISMISS. -/
def Obligations.ManagersChangeOnlyByEnrolAndDismiss : Prop :=
  ∀ (c : Instr) (s t : State), isPowerOn c = false → exec c s = .next t →
    t.managers.map (fun e => (e.port, e.addr, e.right)) = s.managers.map (fun e => (e.port, e.addr, e.right)) ∨
      rowOf c = some (some .enrol) ∨ rowOf c = some (some .dismiss)

/-- R92: coupler time is never set back but by power-on reset, restarts included. That each command advances the
clock by its own dt is the model's choice (log entry 1). -/
def Obligations.ClockRunsThroughEveryCommand : Prop :=
  ∀ (c : Instr) (s t : State), isPowerOn c = false → exec c s = .next t →
    t.clock = s.clock + dtOf c ∧ s.now ≤ t.now

/-- R171 to R173, R175: no counter falls but by READ-COUNTERS and power-on reset. -/
def Obligations.CountersFallOnlyWhenRead : Prop :=
  ∀ (c : Instr) (s t : State), isPowerOn c = false → rowOf c ≠ some (some .readCounters) → exec c s = .next t →
    (∀ p k, s.rxCount p k ≤ t.rxCount p k) ∧ (∀ p k, s.txCount p k ≤ t.txCount p k) ∧
      ∀ k, s.agentCount k ≤ t.agentCount k

/-- R136, R137, R139: a request from a station that is no manager changes nothing but through its response:
beside the clock, the pin and the agent group, only the request's slot moves. IDENTIFY changes nothing either;
the one exception is the ENROL of a station when the table is empty and ENROL_EN is high. -/
def Obligations.NonManagersChangeNothing : Prop :=
  ∀ (c : Instr) (s : State) (m : MgmtSlot),
    rowOf c = some m.command → s.agentQueue.head? = some m → s.manager m.port m.requester = none →
    (m.command = some .enrol → s.managers ≠ [] ∨ (pinsAfter c s.pins).enrolEn = false) →
    ∃ record counters,
      exec c s = .next
        { s.modPort m.port fun x => { x with normal := x.normal ++ [responseSlot m x.inForce.own record .none] } with
          clock := s.clock + dtOf c
          pins := pinsAfter c s.pins
          agentQueue := s.agentQueue.tail
          agentCounters := counters }

/-- R140, R142: a manager's request whose tag, not 0, is its last tag is answered with the cached record,
whatever command it names: no command is carried out, no trigger is set, and the pending tag is cleared when it
is this tag. -/
def Obligations.ReplayAnswersFromTheCache : Prop :=
  ∀ (c : Instr) (s : State) (m : MgmtSlot) (e : Manager) (tag : Byte) (record : List Byte),
    rowOf c = some m.command → s.agentQueue.head? = some m → s.manager m.port m.requester = some e →
    m.frame.payload.head? = some tag → tag ≠ 0 → e.last = some (tag, record) →
    exec c s = .next
      { s.modPort m.port fun x => { x with normal := x.normal ++ [responseSlot m x.inForce.own record .none] } with
        clock := s.clock + dtOf c
        pins := pinsAfter c s.pins
        agentQueue := s.agentQueue.tail
        agentCounters := raiseAll AgentCounter.index [.requestsTaken, .replays] s.agentCounters
        managers := s.managers.map fun x =>
          if x.port = m.port ∧ x.addr = m.requester then
            { x with pendingTag := if x.pendingTag = some tag then none else x.pendingTag }
          else x }

/-- R136, R137, R139, R180: the refusals of steps 2 to 5, in their order: a payload without a command code, a code
that names no command, a station that is no manager and neither asks for IDENTIFY nor may enrol as the first manager, a
READ manager, and, from a requester that has the right, arguments of another length than the command's (11.2). Each
answers with its status and leaves the rest as it stands. That the row of UNKNOWN_COMMAND takes the first two is the
model's choice (log entry 6). -/
def Obligations.RefusalsOfTheHeaderAndTheRight : Prop :=
  ∀ (s : State) (m : MgmtSlot),
    (∀ dt tag, s.agentQueue.head? = some m → s.Fresh m tag → m.frame.payload = [tag] →
      exec (.unknownCommand dt) s = .next (s.answered dt m tag (refusalRecord tag 0 .badLength) .none)) ∧
    (∀ dt, s.agentQueue.head? = some m → m.frame.payload = [] →
      exec (.unknownCommand dt) s = .next (s.answered dt m 0 (refusalRecord 0 0 .badLength) .none)) ∧
    (∀ dt tag code args, s.Heads m tag code args → s.Fresh m tag → (code = 0 ∨ 20 ≤ code.toNat) →
      exec (.unknownCommand dt) s = .next (s.answered dt m tag (refusalRecord tag code .unknownCommand) .none)) ∧
    (∀ c cmd tag code args, s.Heads m tag code args → rowOf c = some (some cmd) → m.command = some cmd →
      s.Fresh m tag →
      let refused (st : Status) : State :=
        { s.answered (dtOf c) m tag (refusalRecord tag code st) .none with pins := pinsAfter c s.pins }
      let reads := cmd ∈ ([.readRule, .readProfile, .readHits, .readMeter, .readPort, .readCounters, .readStore] :
        List Command)
      let mayEnrol := cmd = .enrol ∧ s.managers = [] ∧ (pinsAfter c s.pins).enrolEn = true
      let length : Nat :=
        match cmd with
        | .identify | .abandon | .readStore | .restart => 0
        | .readPort | .restartPort => 1
        | .dismiss | .openEdit | .readMeter | .readCounters => 2
        | .enrol | .commit | .readRule | .readProfile => 3
        | .readHits => 4
        | .writeProfile => 5
        | .setMeter => 7
        | .writeRule => 13
        | .setPort => 27
      (s.rightOf m = none → cmd ≠ .identify → ¬mayEnrol →
        exec c s = .next
          { refused .notManager with
            agentCounters := raiseAll AgentCounter.index [.requestsTaken, .notManager] s.agentCounters }) ∧
      (s.rightOf m = some .read → cmd ≠ .identify → ¬reads →
        exec c s = .next
          { refused .noRight with
            agentCounters := raiseAll AgentCounter.index [.requestsTaken, .noRight] s.agentCounters }) ∧
      (cmd = .identify ∨ s.rightOf m = some .write ∨ s.rightOf m = some .read ∧ reads ∨
          s.rightOf m = none ∧ mayEnrol →
        args.length ≠ length → exec c s = .next (refused .badLength)))

/-! ### The walk -/

/-- R10, with R2's match fields: when an entry matches a frame, on what that does not depend, and that the walk
goes on past an entry that does not match as if it were not there. -/
def Obligations.EntryMatches : Prop :=
  (∀ (e : RuleEntry) (p : Port) (f : Frame), e.matches p f = true ↔
    e.valid = true ∧ (e.ingress = .either ∨ (e.ingress = .A ∧ p = .A) ∨ (e.ingress = .B ∧ p = .B)) ∧
      ((f.type = .data ∧ e.types.data = true) ∨ (f.type = .mgmt ∧ e.types.mgmt = true) ∨
        (f.type = .undelivered ∧ e.types.undelivered = true)) ∧
      f.dst &&& e.dst.mask = e.dst.value &&& e.dst.mask ∧ f.src &&& e.src.mask = e.src.value &&& e.src.mask ∧
      e.classes.getLsbD f.cls.toNat = true ∧ (e.oneShot = .none ∨ e.oneShot = .armed)) ∧
  (∀ (e : RuleEntry) (p : Port) (f : Frame) (u : Bool) (q : BitVec 4) (pl : List Byte),
    e.matches p { f with urgent := u, seq := q, payload := pl } = e.matches p f) ∧
  ∀ (b : Bank) (p : Port) (f : Frame) (i : Fin 128) (rest path : List (Fin 128)),
    b.entries[i].matches p f = false → b.walkFrom p f (i :: rest) path = b.walkFrom p f rest path

/-- R11 to R13: how a walk ends, by the matching entries in index order up to the first with chain STOP: in
chain overrun when they are more than 4; decided by the profile of the last when it has chain STOP; unmatched
when none has. -/
def Obligations.WalkFollowsTheEntries : Prop :=
  ∀ (b : Bank) (p : Port) (f : Frame),
    (b.walk p f = .overrun ↔ 4 < (b.visited p f).length) ∧
    (∀ path profile, b.walk p f = .decided path profile ↔
      (b.visited p f).length ≤ 4 ∧ path = b.visited p f ∧
        ∃ i, path.getLast? = some i ∧ b.entries[i].chain = .stop ∧ b.entries[i].profile = profile) ∧
    (b.walk p f = .unmatched ↔
      (b.visited p f).length ≤ 4 ∧ ∀ i ∈ b.visited p f, b.entries[i].chain = .continue)

/-- R12, R13, R15: chain overrun, an unmatched walk, DROP and DROP-REFUSE leave the frame: one counter beside
rx-good, a REFUSE for a unicast frame under DROP-REFUSE, and nothing else. -/
def Obligations.WalkLeavesTheFrame : Prop :=
  ∀ (dt : Nat) (p : Port) (f : Frame) (s : State), s.EndsWalked dt p f →
    (s.activeBank.walk p f = .overrun →
      exec (.frameEnd dt p) s = .next (s.frameDone dt p [.rxGood, .chainOverrun] .idle)) ∧
    (s.activeBank.walk p f = .unmatched →
      exec (.frameEnd dt p) s = .next (s.frameDone dt p [.rxGood, .notTaken] .idle)) ∧
    (∀ path i, s.activeBank.walk p f = .decided path i →
      (s.activeBank.profiles[i].disposition = .drop →
        exec (.frameEnd dt p) s = .next (s.frameDone dt p [.rxGood, .notTaken] .idle)) ∧
      (s.activeBank.profiles[i].disposition = .dropRefuse →
        exec (.frameEnd dt p) s = .next (s.frameDone dt p [.rxGood, .notTaken] (replyState f .refuse))))

/-- R16, R18: under a FORWARD, a unicast frame whose source's filter record has its sequence and is younger than
the duplicate window is acknowledged and not stored; any other frame that, rewritten, names the egress port's own
address, or is no DATA frame and broadcast, is a rewrite fault. -/
def Obligations.RepeatOrRewriteFaultIsNotTaken : Prop :=
  ∀ (dt : Nat) (p : Port) (f : Frame) (s : State) (path : List (Fin 128)) (i : Fin 32),
    s.EndsWalked dt p f → s.activeBank.walk p f = .decided path i →
    s.activeBank.profiles[i].disposition = .forward →
    (∀ r, f.dst ≠ 255 → (s.port p).rx.filter[f.src.toNat]? = some (some r) → r.seq = f.seq →
      (s.clock + dt) / 1000 - r.time < (s.port p).params.dupWindow →
      exec (.frameEnd dt p) s =
        .next (s.frameDone dt p [.rxGood, .duplicate] (.oweReply ⟨.ack, f.src, f.dst, f.seq⟩))) ∧
    (f.dst = 255 ∨
        (∀ r, (s.port p).rx.filter[f.src.toNat]? = some (some r) →
          r.seq ≠ f.seq ∨ (s.port p).params.dupWindow ≤ (s.clock + dt) / 1000 - r.time) →
      (let own := (s.port (s.activeBank.profiles[i].egress.port p)).inForce.own
       s.activeBank.newDst path f = own ∨ s.activeBank.newSrc path f = own ∨
         (f.type ≠ .data ∧ s.activeBank.newDst path f = 255)) →
      exec (.frameEnd dt p) s =
        .next (s.frameDone dt p [.rxGood, .rewriteFault] (replyState f .refuse)))

/-- R20 to R22: a frame that does not conform to its meter set meets the decided profile's policy: under DROP, REFUSE
and BUSY it is not presented for admission, under DEMOTE it is, and may be refused a slot. A frame that is refused a
slot, under DEMOTE or because it conforms, gets BUSY, or is counted broadcast-no-room. Nothing is charged, spent,
counted as a hit or recorded in the filter. (TakenFrame has the frame that is granted its slot under DEMOTE.) -/
def Obligations.OverBudgetOrRefusedFrameIsNotTaken : Prop :=
  ∀ (dt : Nat) (p : Port) (f : Frame) (s : State) (path : List (Fin 128)) (i : Fin 32),
    s.EndsWalked dt p f → s.activeBank.walk p f = .decided path i →
    s.activeBank.profiles[i].disposition = .forward →
    (f.dst = 255 ∨ (s.elapse dt).isDuplicate p f = false) →
    rewriteFault (s.port (s.activeBank.profiles[i].egress.port p)).inForce.own (s.activeBank.newDst path f)
      (s.activeBank.newSrc path f) f.type = false →
    let refused := s.freeCount = 0 ∨ 30 ≤ s.dataCount ∨
      (s.port (s.activeBank.profiles[i].egress.port p)).inForce.queueLimit ≤
        s.dataAt (s.activeBank.profiles[i].egress.port p)
    let noRoom : List RxCounter := if f.dst = 255 then [.broadcastNoRoom] else []
    ((∃ k ∈ path, ∃ m, s.activeBank.entries[k].meter = some m ∧ s.meters[m].tokens < 7 + f.payload.length) →
      (s.activeBank.profiles[i].policy = .drop →
        exec (.frameEnd dt p) s = .next (s.frameDone dt p [.rxGood, .overBudget] .idle)) ∧
      (s.activeBank.profiles[i].policy = .refuse →
        exec (.frameEnd dt p) s = .next (s.frameDone dt p [.rxGood, .overBudget] (replyState f .refuse))) ∧
      (s.activeBank.profiles[i].policy = .busy →
        exec (.frameEnd dt p) s = .next (s.frameDone dt p [.rxGood, .overBudget] (replyState f .busy))) ∧
      (s.activeBank.profiles[i].policy = .demote → refused →
        exec (.frameEnd dt p) s =
          .next (s.frameDone dt p ([.rxGood, .overBudget] ++ noRoom) (replyState f .busy)))) ∧
    ((∀ k ∈ path, ∀ m, s.activeBank.entries[k].meter = some m → 7 + f.payload.length ≤ s.meters[m].tokens) →
      refused →
      exec (.frameEnd dt p) s = .next (s.frameDone dt p ([.rxGood] ++ noRoom) (replyState f .busy)))

/-- R17, R19 to R23: a frame that passes every check and is granted a slot is taken: what it charges, spends, raises
and records, the slot that joins the egress queue, the ACK of a unicast frame, and what stays. A demoted frame, one
over budget under policy DEMOTE, takes the normal queue, is counted over-budget and charges nothing. -/
def Obligations.TakenFrame : Prop :=
  ∀ (dt : Nat) (p : Port) (f : Frame) (s : State) (path : List (Fin 128)) (i : Fin 32) (demoted : Bool),
    let b := s.activeBank
    let q := b.profiles[i]
    let e := q.egress.port p
    let choice : QueueChoice :=
      if demoted then .normal
      else
        match q.queue with
        | .urgent => .urgent
        | .normal => .normal
        | .asReceived => if f.urgent then .urgent else .normal
    let dst := ((path.reverse.findSome? fun k => b.entries[k].dstRewrite)).getD f.dst
    let src : Byte :=
      match (path.reverse.map fun k => b.entries[k].srcRewrite).find? (fun r => decide (r ≠ SrcRewrite.absent)) with
      | some (.fixed v) => v
      | some (.offset k) => BitVec.ofNat 8 ((f.src.toNat + k.toNat) % 255)
      | _ => f.src
    let slot : Slot := .data
      { kind := .forward
        frame := { dst := dst, src := src, type := f.type, urgent := choice == .urgent, seq := f.seq,
                   cls := q.clsRewrite.getD f.cls, payload := f.payload }
        ingress := p, origDst := f.dst, origSrc := f.src, origCls := f.cls, arrival := (s.clock + dt) / 1000
        epoch := s.commitCount, egress := e, queue := choice, notify := q.notify, mark := false }
    s.EndsWalked dt p f → b.walk p f = .decided path i → q.disposition = .forward →
    (f.dst = 255 ∨ (s.elapse dt).isDuplicate p f = false) →
    rewriteFault (s.port e).inForce.own dst src f.type = false →
    (if demoted then
      q.policy = .demote ∧ ∃ k ∈ path, ∃ m, b.entries[k].meter = some m ∧ s.meters[m].tokens < 7 + f.payload.length
    else ∀ k ∈ path, ∀ m, b.entries[k].meter = some m → 7 + f.payload.length ≤ s.meters[m].tokens) →
    s.dataCount < 30 → s.dataCount + s.mgmtCount < 32 → s.dataAt e < (s.port e).inForce.queueLimit →
    ∃ t, exec (.frameEnd dt p) s = .next t ∧
      (∀ m : Fin 16, t.meters[m] =
        if demoted = false ∧ ∃ k ∈ path, b.entries[k].meter = some m then
          { s.meters[m] with tokens := s.meters[m].tokens - (7 + f.payload.length) }
        else s.meters[m]) ∧
      (∀ k : Fin 128, t.activeBank.hits[k] = (if k ∈ path then satAdd b.hits[k] 1 else b.hits[k]) ∧
        t.activeBank.entries[k] =
          (if k ∈ path ∧ b.entries[k].oneShot = .armed then { b.entries[k] with oneShot := .spent }
          else b.entries[k])) ∧
      t.activeBank.profiles = b.profiles ∧ t.bank s.standby = s.bank s.standby ∧
      (t.port e).urgent = (s.port e).urgent ++ (if choice = .urgent then [slot] else []) ∧
      (t.port e).normal = (s.port e).normal ++ (if choice = .normal then [slot] else []) ∧
      (t.port e.other).urgent = (s.port e.other).urgent ∧ (t.port e.other).normal = (s.port e.other).normal ∧
      (t.port p).rx =
        { (s.port p).rx with
          state := replyState f .ack
          inWait := false
          filter := if f.dst = 255 then (s.port p).rx.filter
            else (s.port p).rx.filter.setIfInBounds f.src.toNat (some ⟨f.seq, (s.clock + dt) / 1000⟩)
          counters := raiseAll RxCounter.index
            (if demoted then [.rxGood, .overBudget, .takenForward] else [.rxGood, .takenForward])
            (s.port p).rx.counters } ∧
      (t.port p.other).rx = (s.port p.other).rx ∧
      (∀ r, (t.port r).tx = (s.port r).tx ∧ (t.port r).params = (s.port r).params ∧
        (t.port r).inForce = (s.port r).inForce ∧ (t.port r).staged = (s.port r).staged ∧
        (t.port r).idleSince = (s.port r).idleSince ∧ (t.port r).clash = (s.port r).clash) ∧
      t.clock = s.clock + dt ∧ t.pins = s.pins ∧ t.active = s.active ∧ t.commitCount = s.commitCount ∧
      t.session = s.session ∧ t.fence = s.fence ∧ t.agentQueue = s.agentQueue ∧ t.managers = s.managers ∧
      t.restartPending = s.restartPending ∧ t.agentCounters = s.agentCounters ∧ t.pending = s.pending

/-! ### Formats -/

/-- R77 to R79, R96, R179: a frame the part may send, of any type and with every field at any value its type
admits, passes the screening of a port whose own address is not its source, and is read back as it is. -/
def Obligations.SentFramesPassScreening : Prop :=
  ∀ (own : Byte) (f : Frame),
    f.payload.length ≤ 240 → f.src ≠ 255 → f.src ≠ own → (f.dst = 255 → f.type = .data) →
    (f.type = .ack ∨ f.type = .busy ∨ f.type = .refuse → f.payload = []) →
    screen own f.onLine f.onLine.length false = .good f

/-- R179: a frame that passes screening is kept byte for byte: sent again with no change it is the bytes that
arrived. -/
def Obligations.ReceivedFrameIsKeptByteForByte : Prop :=
  ∀ (own : Byte) (b : List Byte) (f : Frame), screen own b b.length false = .good f → f.onLine = b

/-- 11.3, R155, R181: READ-RULE's 12 bytes, field by field; that they name the entry they were made from, for every
entry that WRITE-RULE can write; and that the bytes WRITE-RULE accepts are given back, but for the value bytes of an
absent rewrite, which are given back as 0. -/
def Obligations.RuleEntryEncodesAndDecodes : Prop :=
  (∀ e : RuleEntry,
    (encodeRule e).map BitVec.toNat =
      [(if e.valid then 128 else 0) + (match e.ingress with | .A => 0 | .B => 32 | .either => 64) +
          (match e.oneShot with | .none => 0 | .armed => 8 | .spent => 16) + (if e.chain = .continue then 4 else 0),
        (if e.types.undelivered then 4 else 0) + (if e.types.mgmt then 2 else 0) + (if e.types.data then 1 else 0),
        e.dst.value.toNat, e.dst.mask.toNat, e.src.value.toNat, e.src.mask.toNat, e.classes.toNat, e.profile.val,
        (match e.meter with | some m => m.val | none => 255),
        (if e.dstRewrite = none then 0 else 128) + (match e.srcRewrite with | .absent => 0 | .fixed _ => 1 | .offset _ => 2),
        (match e.dstRewrite with | some v => v.toNat | none => 0),
        (match e.srcRewrite with | .absent => 0 | .fixed v => v.toNat | .offset k => k.toNat)]) ∧
  (∀ e : RuleEntry, e.types ≠ ⟨false, false, false⟩ → e.srcRewrite ≠ .fixed 255 → e.srcRewrite ≠ .offset 0 →
    e.srcRewrite ≠ .offset 255 → decodeRule (encodeRule e) = some e) ∧
  ∀ (b : List Byte) (e : RuleEntry), b.length = 12 → decodeRule b = some e →
    (encodeRule e).take 10 = b.take 10 ∧
    (encodeRule e)[10]? = (if e.dstRewrite = none then some 0 else b[10]?) ∧
    (encodeRule e)[11]? = (if e.srcRewrite = .absent then some 0 else b[11]?)

/-- 11.3, R156, R181: the same of an action profile's 4 bytes. -/
def Obligations.ProfileEncodesAndDecodes : Prop :=
  (∀ q : Profile,
    (encodeProfile q).map BitVec.toNat =
      [(match q.disposition with | .forward => 0 | .drop => 1 | .dropRefuse => 2),
        (if q.egress = .same then 16 else 0) + (match q.queue with | .urgent => 0 | .normal => 1 | .asReceived => 2),
        (if q.notify then 16 else 0) + (match q.policy with | .drop => 0 | .refuse => 1 | .busy => 2 | .demote => 3),
        (match q.clsRewrite with | some c => 128 + c.toNat | none => 0)]) ∧
  (∀ q : Profile, decodeProfile (encodeProfile q) = some q) ∧
  ∀ (b : List Byte) (q : Profile), b.length = 4 → decodeProfile b = some q →
    (encodeProfile q).take 3 = b.take 3 ∧ (encodeProfile q)[3]? = (if q.clsRewrite = none then some 0 else b[3]?)

/-- 11.1 to 11.3: the codes of ports, banks, rates, rights and statuses, a count's four bytes, and the encodings
the chapter works out: the power-on entry and profile, the header of the frame
forwarded in the first example, the ACK that answers it, and the fenced commit's request. R80: the ten bits of a byte
on the line, its data bits sent low-order bit first, and that the bytes of a frame follow one another back to back. -/
def Obligations.WorkedEncodings : Prop :=
  encodeRule powerOnEntry = [64, 1, 0, 0, 0, 0, 255, 0, 255, 0, 0, 0] ∧
  encodeProfile powerOnProfile = [1, 2, 0, 0] ∧
  (∀ payload : List Byte, payload.length = 20 →
    Frame.header ⟨12, 107, .data, false, 3, 3, payload⟩ = [12, 107, 35, 3, 20]) ∧
  Frame.header (Reply.frame ⟨.ack, 107, 12, 3⟩) = [107, 12, 99, 0, 0] ∧
  Frame.stored ⟨226, 10, .mgmt, false, 4, 0, [17, 7, 1, 19, 136]⟩ = [226, 10, 68, 0, 5, 17, 7, 1, 19, 136] ∧
  [Port.A, .B].map portCode = [0, 1] ∧ [BankName.X, .Y].map BankName.code = [0, 1] ∧
  [Rate.k62, .k250, .k1000].map Rate.code = [0, 1, 2] ∧ [Right.read, .write].map Right.code = [1, 2] ∧
  [Status.ok, .notManager, .noRight, .noSession, .sessionHeld, .fencePending, .fenceTimeout, .badIndex,
    .badArgument, .notFound, .lastManager, .tableFull, .badLength, .unknownCommand].map Status.code =
    [0, 1, 2, 3, 4, 5, 6, 7, 8, 9, 10, 11, 12, 13] ∧
  (∀ a b c d : Byte, be32 (a ++ b ++ c ++ d) = [a, b, c, d]) ∧
  (∀ v : Byte, byteBits v =
    [.start, .data (v.getLsbD 0), .data (v.getLsbD 1), .data (v.getLsbD 2), .data (v.getLsbD 3),
      .data (v.getLsbD 4), .data (v.getLsbD 5), .data (v.getLsbD 6), .data (v.getLsbD 7), .stop]) ∧
  ∀ (v : Byte) (rest : List Byte), lineBits [] = [] ∧ lineBits (v :: rest) = byteBits v ++ lineBits rest

/-! ### Receiving and replying -/

/-- R80, R81, R86, R95, R107: what a port reads from one start bit on, a byte or noise. In IDLE a start bit begins a
frame; in OWE-REPLY before the reply gap it also loses the reply; in RECEIVING what follows within 3 bt joins the frame,
a byte stored while the buffer has room and counted always, a framing fault marked. Until 3 bt of idle time after the
port stopped driving in the middle of another's activity nothing is assembled. While the port drives, what it reads is
compared with the byte it is sending: a byte that differs, a start bit that is not its own, or noise is another
station's, and a collision in that byte, unless one has shown already; what is its own changes nothing. The activity of
another station sets idle time back. That a start bit at exactly 3 bt of idle time joins the frame and one at exactly
the reply wait counts as within it are the model's choices (log entry 6); so are which activity is the port's own, a
byte in step with its own bytes and equal to the one being sent, and that activity after the drive's end changes nothing
until the send or reply has ended (log entry 15). -/
def Obligations.BytesAreAssembled : Prop :=
  ∀ (dt : Nat) (p : Port) (act : Activity) (s : State),
    let bits := match act with | .byte _ _ => 10 | .noise n => n
    let read : List Byte := match act with | .byte v _ => [v] | .noise _ => []
    let bad := match act with | .byte _ ok => !ok | .noise _ => false
    let busyUntil := max (s.port p).idleSince (s.clock + dt + bits * s.bitTime p)
    let idle := s.clock + dt - (s.port p).idleSince
    1 ≤ bits →
    (∀ lost : Bool, s.driverEnable p = false →
      (if lost then (∃ r, (s.port p).rx.state = .oweReply r) ∧ idle < 10 * s.bitTime p
        else (s.port p).rx.state = .idle ∧ ((s.port p).rx.holdOff = false ∨ 3 * s.bitTime p ≤ idle)) →
      exec (.byteReceived dt p act) s = .next ((s.elapse dt).modPort p fun x =>
        { x with
          idleSince := busyUntil
          rx := { x.rx with
            state := .receiving
            buffer := read
            count := read.length
            framingFault := bad
            inWait := match x.tx.state with | .awaitReply w => decide (idle ≤ w * s.bitTime p) | _ => false
            holdOff := false
            counters := raiseAll RxCounter.index (if lost then [.replyLost] else []) x.rx.counters } })) ∧
    (s.driverEnable p = false → (s.port p).rx.state = .receiving → idle ≤ 3 * s.bitTime p →
      exec (.byteReceived dt p act) s = .next ((s.elapse dt).modPort p fun x =>
        { x with
          idleSince := busyUntil
          rx := { x.rx with
            buffer := if x.rx.count < 247 then x.rx.buffer ++ read else x.rx.buffer
            count := x.rx.count + read.length
            framingFault := x.rx.framingFault || bad } })) ∧
    (s.driverEnable p = false → (s.port p).rx.state = .idle → (s.port p).rx.holdOff = true →
      idle < 3 * s.bitTime p →
      exec (.byteReceived dt p act) s = .next ((s.elapse dt).modPort p fun x => { x with idleSince := busyUntil })) ∧
    (∀ start,
      (∃ w, (s.port p).tx.state = .sending w start) ∨
        ((s.port p).tx.state.isSending = false ∧ ∃ r, (s.port p).rx.state = .replying r start) →
      let byteTime := 10 * s.bitTime p
      let passed := s.clock + dt - start
      let k := passed / byteTime + 1
      let own := passed % byteTime = 0 ∧ ∃ v, act = .byte v true ∧ (s.driven p)[k - 1]? = some v
      let sent := match (s.port p).clash with | some j => j | none => (s.driven p).length
      let driving := s.clock + dt < start + sent * byteTime
      (driving → ¬own →
        exec (.byteReceived dt p act) s = .next ((s.elapse dt).modPort p fun x =>
          { x with
            idleSince := busyUntil
            clash := match x.clash with | some j => some j | none => some k })) ∧
      (own ∨ ¬driving → exec (.byteReceived dt p act) s = .next (s.elapse dt)))

/-- R96: the five tests in their order, and that a frame that fails one raises that test's counter and is
discarded, with no reply. -/
def Obligations.FirstFailedTestIsCounted : Prop :=
  (∀ (own : Byte) (b : List Byte) (n : Nat) (fault : Bool), (n < 7 ∨ 247 < n ∨ fault = true) →
    screen own b n fault = .failed .lengthError) ∧
  (∀ (own dst src kind cls len : Byte) (payload : List Byte) (hi lo : Byte),
    let body := dst :: src :: kind :: cls :: len :: payload
    let b := body ++ [hi, lo]
    let t := kind.toNat / 32
    b.length ≤ 247 →
    (checkBytes body ≠ [hi, lo] → screen own b b.length false = .failed .checkError) ∧
    (checkBytes body = [hi, lo] →
      (payload.length ≠ len.toNat ∨ 240 < len.toNat → screen own b b.length false = .failed .lengthError) ∧
      (payload.length = len.toNat → len.toNat ≤ 240 →
        (t = 0 ∨ t = 7 ∨ 8 ≤ cls.toNat ∨ (dst = 255 ∧ t ≠ 1) ∨ ((t = 3 ∨ t = 4 ∨ t = 5) ∧ len ≠ 0) →
          screen own b b.length false = .failed .formatError) ∧
        (¬(t = 0 ∨ t = 7 ∨ 8 ≤ cls.toNat ∨ (dst = 255 ∧ t ≠ 1) ∨ ((t = 3 ∨ t = 4 ∨ t = 5) ∧ len ≠ 0)) →
          src = 255 ∨ src = own → screen own b b.length false = .failed .addressConflict)))) ∧
  ∀ (dt : Nat) (p : Port) (c : RxCounter) (s : State),
    s.Ends dt p → s.screened p = .failed c → (s.port p).tx.state.isAwaiting = false →
    exec (.frameEnd dt p) s = .next (s.frameDone dt p [c] .idle)

/-- R177: every frame end raises exactly one of the five screening counters. A slot with a restart trigger in the
port's position is left out, since its outcome may restart the port and abandon the frame (R110). -/
def Obligations.FrameEndRaisesOneScreeningCounter : Prop :=
  ∀ (dt : Nat) (p : Port) (s t : State),
    let total (x : State) : Nat :=
      (x.rxCount p .rxGood).toNat + (x.rxCount p .checkError).toNat + (x.rxCount p .lengthError).toNat +
        (x.rxCount p .formatError).toNat + (x.rxCount p .addressConflict).toNat
    s.Ends dt p → (s.port p).tx.pos.all (fun x => !x.hasTrigger) = true →
    (∀ c, (s.rxCount p c).toNat < 4294967295) → exec (.frameEnd dt p) s = .next t → total t = total s + 1

/-- R98, R122 to R126: the awaited reply settles the frame sent, a forwarded frame, a notice or a response: ACK
delivers and frees it, with single-collision or multi-collision by its collision count; BUSY holds it within the busy
limit and fails it beyond; REFUSE fails it. A slot with a restart trigger is left out where it ends, since its end
restarts the part (PortRestartFollowsItsResponse, SoftRestartFollowsItsResponse). -/
def Obligations.AwaitedReplySettlesTheFrame : Prop :=
  ∀ (dt : Nat) (p : Port) (w : Nat) (x : Slot) (f : Frame) (s : State),
    s.Ends dt p → s.screened p = .good f → (s.port p).rx.inWait = true →
    (s.port p).tx.state = .awaitReply w → (s.port p).tx.pos = some x → x.marked = false → f.Answers x.frame →
    let u := s.frameDone dt p [.rxGood] .idle
    (f.type = .ack → x.hasTrigger = false →
      exec (.frameEnd dt p) s = .next (u.ended p x
        (if (s.port p).tx.collisions = 0 then [.delivered]
          else if (s.port p).tx.collisions = 1 then [.delivered, .singleCollision]
          else [.delivered, .multiCollision]))) ∧
    (f.type = .busy → (s.port p).tx.busies < (s.port p).params.busyLimit →
      exec (.frameEnd dt p) s = .next (u.modPort p fun y =>
        { y with
          tx := { y.tx with
            state := .busyHold ((s.clock + dt) / 1000 + y.params.busyHold)
            busies := y.tx.busies + 1
            counters := raiseAll TxCounter.index [.busyReceived] y.tx.counters } })) ∧
    (f.type = .busy → (s.port p).params.busyLimit ≤ (s.port p).tx.busies → x.hasTrigger = false →
      exec (.frameEnd dt p) s = .next (u.failed p x 5 (s.port p).tx.attempts [.busyReceived, .busyExhausted])) ∧
    (f.type = .refuse → x.hasTrigger = false →
      exec (.frameEnd dt p) s = .next (u.failed p x 6 (s.port p).tx.attempts [.refusedReceived]))

/-- R97, R98: a reply that is not awaited is counted stray-reply when it names the port's own address or the
last-sent source, and passed by otherwise; a DATA or UNDELIVERED frame to the own address is counted own-data. -/
def Obligations.StrayRepliesAndOwnData : Prop :=
  ∀ (dt : Nat) (p : Port) (f : Frame) (s : State), s.EndsGood dt p f →
    (f.type = .ack ∨ f.type = .busy ∨ f.type = .refuse →
      (f.dst = (s.port p).inForce.own ∨ (s.port p).rx.lastSent = some f.dst →
        exec (.frameEnd dt p) s = .next (s.frameDone dt p [.rxGood, .strayReply] .idle)) ∧
      (f.dst ≠ (s.port p).inForce.own → (s.port p).rx.lastSent ≠ some f.dst →
        exec (.frameEnd dt p) s = .next (s.frameDone dt p [.rxGood] .idle))) ∧
    (f.dst = (s.port p).inForce.own → f.type = .data ∨ f.type = .undelivered →
      exec (.frameEnd dt p) s = .next (s.frameDone dt p [.rxGood, .ownData] .idle))

/-- R65, R100, R101: the intake's four ends, in their order: a line duplicate, a repeat of the pending tag, a
refused admission, and a request taken. -/
def Obligations.IntakeTakesRequests : Prop :=
  ∀ (dt : Nat) (p : Port) (f : Frame) (s : State),
    s.EndsGood dt p f → f.type = .mgmt → f.dst = (s.port p).inForce.own →
    let ack : RxState := .oweReply ⟨.ack, f.src, f.dst, f.seq⟩
    let tag := f.payload.head?.getD 0
    ((s.elapse dt).isDuplicate p f = true →
      exec (.frameEnd dt p) s = .next (s.frameDone dt p [.rxGood, .duplicate] ack)) ∧
    ((s.elapse dt).isDuplicate p f = false →
      (∀ e, s.manager p f.src = some e → tag ≠ 0 → e.pendingTag = some tag →
        exec (.frameEnd dt p) s = .next
          { s.frameDone dt p [.rxGood] ack with
            agentCounters := raiseAll AgentCounter.index [.duplicatePending] s.agentCounters }) ∧
      ((∀ e, s.manager p f.src = some e → tag = 0 ∨ e.pendingTag ≠ some tag) →
        (s.freeCount = 0 ∨ 6 ≤ s.mgmtCount ∨ 4 ≤ s.agentQueue.length ∨ s.restartPending ≠ 0 →
          exec (.frameEnd dt p) s = .next
            { s.frameDone dt p [.rxGood] (.oweReply ⟨.busy, f.src, f.dst, f.seq⟩) with
              agentCounters := raiseAll AgentCounter.index [.agentBusy] s.agentCounters }) ∧
        (s.dataCount + s.mgmtCount < 32 → s.mgmtCount < 6 → s.agentQueue.length < 4 → s.restartPending = 0 →
          exec (.frameEnd dt p) s = .next
            { (s.frameDone dt p [.rxGood, .takenAgent] ack).modPort p fun x =>
                { x with rx := { x.rx with
                    filter := x.rx.filter.setIfInBounds f.src.toNat (some ⟨f.seq, (s.clock + dt) / 1000⟩) } } with
              agentQueue := s.agentQueue ++
                [{ kind := .request, frame := f, port := p, requester := f.src, trigger := .none }]
              managers := s.managers.map fun e =>
                if tag ≠ 0 ∧ e.port = p ∧ e.addr = f.src then { e with pendingTag := some tag } else e })))

/-- R80, R81, R95, R105 to R108: a reply that is owed: its first byte starts at 10 bt of idle time and it is what the
port drives, TXD at its first start bit and the line active; sent whole with no collision it is counted by its type; a
collision, once the byte that showed it has been sent, or a start bit before the gap, loses it. Idle time then runs from
the end of the last byte driven, or from the end of another station's activity if that is later, and assembly waits for
3 bt of idle time where that activity goes on. Three points are the model's choice: that REPLY_SENT, commanded once a
collision has shown, lets time pass and does nothing else (log entry 6), that REPLY_ABANDONED is the start bit alone,
one bit time of activity that begins an empty frame, its byte to follow (log entry 10), and that activity which ends at
the very moment the driver goes off counts as going on (log entry 15). -/
def Obligations.RepliesAreSentOnceOrLost : Prop :=
  ∀ (dt : Nat) (p : Port) (r : Reply) (s : State),
    let idle := s.clock + dt - s.lineEnd p
    ((s.port p).rx.state = .oweReply r → 10 * s.bitTime p ≤ idle →
      ∃ t, exec (.replyGapReached dt p) s = .next t ∧
        t = (s.elapse dt).modPort p (fun x =>
          { x with clash := none, rx := { x.rx with state := .replying r (s.clock + dt) } }) ∧
        ((s.port p).tx.state.isSending = false → t.driven p =
          Frame.onLine ⟨r.dst, r.src, r.type.frameType, false, r.seq, 0, []⟩ ∧
          t.txd p = .start ∧ t.idleTime p = 0)) ∧
    (∀ start, (s.port p).rx.state = .replying r start → (s.port p).clash = none →
      start + 70 * s.bitTime p ≤ s.clock + dt →
      exec (.replySent dt p) s = .next ((s.elapse dt).modPort p fun x =>
        { x with
          idleSince := max x.idleSince (start + 70 * s.bitTime p)
          clash := none
          rx := { x.rx with
            state := .idle
            holdOff := decide (start + 70 * s.bitTime p ≤ x.idleSince)
            counters := raiseAll RxCounter.index
              (match r.type with | .ack => [] | .busy => [.busySent] | .refuse => [.refusedSent])
              x.rx.counters } })) ∧
    (∀ start k, (s.port p).rx.state = .replying r start → (s.port p).clash = some k →
      exec (.replySent dt p) s = .next (s.elapse dt) ∧
      (start + k * 10 * s.bitTime p ≤ s.clock + dt →
        exec (.replyCollision dt p k) s = .next ((s.elapse dt).modPort p fun x =>
          { x with
            idleSince := max x.idleSince (start + k * 10 * s.bitTime p)
            clash := none
            rx := { x.rx with
              state := .idle
              holdOff := decide (start + k * 10 * s.bitTime p ≤ x.idleSince)
              counters := raiseAll RxCounter.index [.replyLost] x.rx.counters } }))) ∧
    ((s.port p).rx.state = .oweReply r → idle < 10 * s.bitTime p →
      exec (.replyAbandoned dt p) s = .next ((s.elapse dt).modPort p fun x =>
        { x with
          idleSince := max x.idleSince (s.clock + dt + 1 * s.bitTime p)
          rx := { x.rx with
            state := .receiving
            buffer := []
            count := 0
            framingFault := false
            inWait := match x.tx.state with | .awaitReply w => decide (idle ≤ w * s.bitTime p) | _ => false
            holdOff := false
            counters := raiseAll RxCounter.index [.replyLost] x.rx.counters } }))

/-! ### Transmitting -/

/-- R113 to R117: an idle path that owes no reply takes the head of the urgent queue, or of the normal queue when
the urgent one is empty; a slot that is not too old gets counts of 0, a unicast frame its source's sequence, which
advances, a broadcast 0. Where idle time has not reached the frame's gap the path enters DEFER; where it has, the gap is
reached in the same event and the send begins. That a frame still being assembled keeps the gap from being reached is
the model's choice (log entry 6). -/
def Obligations.SelectionTakesTheHead : Prop :=
  ∀ (dt : Nat) (p : Port) (h : Slot) (urgent normal : List Slot) (s : State),
    let gap := if h.frame.urgent then (s.port p).params.urgentGap else (s.port p).params.normalGap
    let seq := ((s.port p).tx.seqTable[h.frame.src.toNat]?).getD 0
    let idle := s.clock + dt - (s.port p).idleSince
    let taken (st : TxState) (clash : Option Nat) : State := (s.elapse dt).modPort p fun x =>
      { x with
        urgent := urgent
        normal := normal
        clash := clash
        tx := { x.tx with
          state := st
          pos := some (h.withSeq (if h.frame.dst = 255 then 0 else seq))
          attempts := 0
          collisions := 0
          busies := 0
          seqTable := if h.frame.dst = 255 then x.tx.seqTable
            else x.tx.seqTable.setIfInBounds h.frame.src.toNat (seq + 1) } }
    (s.port p).tx.state = .idle → ((s.port p).rx.state = .idle ∨ (s.port p).rx.state = .receiving) →
    ((s.port p).urgent = h :: urgent ∧ (s.port p).normal = normal ∨
      (s.port p).urgent = [] ∧ urgent = [] ∧ (s.port p).normal = h :: normal) →
    (match h with
      | .data d => (s.port p).params.ageLimit = 0 ∨ (s.clock + dt) / 1000 - d.arrival ≤ (s.port p).params.ageLimit
      | .mgmt _ => True) →
    (idle < gap * s.bitTime p ∨ (s.port p).rx.state = .receiving →
      exec (.selection dt p) s = .next
        (taken (.defer gap ((s.clock + dt) / 1000) (s.port p).params.deferLimit) (s.port p).clash)) ∧
    (gap * s.bitTime p ≤ idle → (s.port p).rx.state = .idle →
      exec (.selection dt p) s = .next (taken (.sending (s.port p).params.window (s.clock + dt)) none))

/-- R109, R116, R120, R123: at the end of a backoff or a busy hold the path enters DEFER, reading gap and defer limit,
whatever the receive path does; when idle time reaches the gap, or is already there, with the receive path in IDLE it
sends, with the window in force, and the port drives the frame and its check. That a frame still being assembled keeps
the gap from being reached is the model's choice (log entry 6). R80, 12: the line is then active and TXD carries the
bits of each byte in turn, a start bit, the data bits low-order bit first and a stop bit, to the end of the last, one
bit in each bit time; TXD is at the idle level before and after. -/
def Obligations.WaitsEndInDeferAndSending : Prop :=
  ∀ (dt : Nat) (p : Port) (x : Slot) (s : State),
    let gap := if x.frame.urgent then (s.port p).params.urgentGap else (s.port p).params.normalGap
    let idle := s.clock + dt - (s.port p).idleSince
    let waits := idle < gap * s.bitTime p ∨ (s.port p).rx.state ≠ .idle
    let deferred := (s.elapse dt).modPort p fun y =>
      { y with tx := { y.tx with state := .defer gap ((s.clock + dt) / 1000) y.params.deferLimit } }
    let sending := (s.elapse dt).modPort p fun y =>
      { y with clash := none, tx := { y.tx with state := .sending y.params.window (s.clock + dt) } }
    (s.port p).tx.pos = some x → x.marked = false →
    (∀ ends, (s.port p).tx.state = .backoff ends → ends ≤ s.clock + dt →
      (waits → exec (.backoffEnd dt p) s = .next deferred) ∧
      (gap * s.bitTime p ≤ idle → (s.port p).rx.state = .idle → exec (.backoffEnd dt p) s = .next sending)) ∧
    (∀ ends, (s.port p).tx.state = .busyHold ends → ends ≤ (s.clock + dt) / 1000 →
      (waits → exec (.busyHoldEnd dt p) s = .next deferred) ∧
      (gap * s.bitTime p ≤ idle → (s.port p).rx.state = .idle → exec (.busyHoldEnd dt p) s = .next sending)) ∧
    (∀ g start limit, (s.port p).tx.state = .defer g start limit → g * s.bitTime p ≤ idle →
      (s.port p).rx.state = .idle →
      exec (.gapReached dt p) s = .next sending ∧ sending.driverEnable p = true ∧
        sending.driven p = x.frame.onLine ∧
        ∀ d,
          let t := sending.elapse d
          let bit := d / s.bitTime p
          (∀ v, x.frame.onLine[bit / 10]? = some v →
            t.idleTime p = 0 ∧
              t.txd p = (if bit % 10 = 0 then .start else if bit % 10 = 9 then .stop
                else .data (v.getLsbD (bit % 10 - 1)))) ∧
          ((7 + x.frame.payload.length) * 10 ≤ bit → t.txd p = .idle)) ∧
    (s.driverEnable p = false → s.txd p = .idle)

/-- R80, R81, R95, R118, R121: a frame sent to its last byte with no collision sets the last-sent source; a unicast
frame waits for its reply, a broadcast ends SENT-BROADCAST and is freed. Idle time runs from the end of the last stop
bit, its own or another station's. That SEND_COMPLETE, commanded once a collision has shown, lets time pass and does
nothing else is the model's choice (log entry 6), and so is that activity which ends at the very moment the driver goes
off counts as going on, so that assembly waits for 3 bt of idle time (log entry 15). -/
def Obligations.SendCompletes : Prop :=
  ∀ (dt : Nat) (p : Port) (w start : Nat) (x : Slot) (s : State),
    (s.port p).tx.state = .sending w start → (s.port p).tx.pos = some x → x.marked = false →
    let ended := start + (7 + x.frame.payload.length) * 10 * s.bitTime p
    let done := (s.elapse dt).modPort p fun y =>
      { y with
        idleSince := max y.idleSince ended
        clash := none
        rx := { y.rx with lastSent := some x.frame.src, holdOff := decide (ended ≤ y.idleSince) } }
    ((s.port p).clash = none → ended ≤ s.clock + dt →
      (x.frame.dst ≠ 255 →
        exec (.sendComplete dt p) s = .next (done.modPort p fun y =>
          { y with tx := { y.tx with state := .awaitReply y.params.replyWait } })) ∧
      (x.frame.dst = 255 → x.hasTrigger = false →
        exec (.sendComplete dt p) s = .next (done.ended p x [.broadcastSent]))) ∧
    ((s.port p).clash ≠ none → exec (.sendComplete dt p) s = .next (s.elapse dt))

/-- R80, R81, R86, R95, R118 to R120, R126: a collision that has shown in byte k, once that byte has been sent. Within
the window it is counted and, while attempts are left, leads to a backoff of (L + a) × 16 bit times, with L the ladder
step of the attempt count and a the own address modulo 8, counted from the end of byte k, a backoff of 0 ending at once
in DEFER, or in the send where idle time has reached the gap; with none left, or beyond the window, the frame fails.
Idle time runs from the end of byte k, or of another station's activity if that ends later, and only where that activity
goes on does assembly wait for 3 bt of idle time. That activity which ends at the very end of byte k counts as going on
is the model's choice (log entry 15). A slot with a restart trigger is left out where it ends, since its end restarts
the part. -/
def Obligations.CollisionBacksOffOrEnds : Prop :=
  ∀ (dt : Nat) (p : Port) (k w start : Nat) (x : Slot) (s : State),
    (s.port p).tx.state = .sending w start → (s.port p).tx.pos = some x → x.marked = false →
    let ended := start + k * 10 * s.bitTime p
    (s.port p).clash = some k → ended ≤ s.clock + dt →
    let n := (s.port p).tx.attempts + 1
    let gap := if x.frame.urgent then (s.port p).params.urgentGap else (s.port p).params.normalGap
    let wait := (((s.port p).params.ladder.toList.getD (min n 8 - 1) 0).toNat +
      (s.port p).inForce.own.toNat % 8) * 16
    let idle := s.clock + dt - max (s.port p).idleSince ended
    let off := (s.elapse dt).modPort p fun y =>
      { y with
        idleSince := max y.idleSince ended
        clash := none
        rx := { y.rx with holdOff := decide (ended ≤ y.idleSince) } }
    let retried (st : TxState) := off.modPort p fun y =>
      { y with
        tx := { y.tx with
          state := st
          attempts := n
          collisions := y.tx.collisions + 1
          counters := raiseAll TxCounter.index [.collisions] y.tx.counters } }
    (k ≤ w → n < (s.port p).params.retryLimit + 1 →
      (0 < wait →
        exec (.collision dt p k) s = .next (retried (.backoff (ended + wait * s.bitTime p)))) ∧
      (wait = 0 → idle < gap * s.bitTime p ∨ (s.port p).rx.state ≠ .idle →
        exec (.collision dt p k) s =
          .next (retried (.defer gap ((s.clock + dt) / 1000) (s.port p).params.deferLimit))) ∧
      (wait = 0 → gap * s.bitTime p ≤ idle → (s.port p).rx.state = .idle →
        exec (.collision dt p k) s = .next (retried (.sending (s.port p).params.window (s.clock + dt))))) ∧
    (k ≤ w → (s.port p).params.retryLimit + 1 ≤ n → x.hasTrigger = false →
      exec (.collision dt p k) s = .next (off.failed p x 3 n [.collisions, .retryExhausted])) ∧
    (w < k → x.hasTrigger = false →
      exec (.collision dt p k) s = .next (off.failed p x 4 n [.lateCollision]))

/-- R99, R119 to R121, R124, R126: a reply wait ends NO-REPLY when idle time reaches it with no start bit read, and
also at the end of a frame begun within it that is not the awaited reply. The attempt is counted; while any is left a
backoff begins, one of 0 ending at once in DEFER or in the send; with none left the frame fails. The frame that ended
the wait is then handled as it would be with the wait already over. A slot with a restart trigger is left out where
it ends, since its end restarts the part. -/
def Obligations.NoReplyIsRetried : Prop :=
  ∀ (dt : Nat) (p : Port) (w : Nat) (x : Slot) (s : State),
    (s.port p).tx.state = .awaitReply w → (s.port p).tx.pos = some x → x.marked = false →
    let n := (s.port p).tx.attempts + 1
    let gap := if x.frame.urgent then (s.port p).params.urgentGap else (s.port p).params.normalGap
    let idle := s.clock + dt - (s.port p).idleSince
    let wait := (((s.port p).params.ladder.toList.getD (min n 8 - 1) 0).toNat +
      (s.port p).inForce.own.toNat % 8) * 16
    let retried (st : TxState) (y : PortState) : PortState :=
      { y with tx := { y.tx with
          state := st
          attempts := n
          counters := raiseAll TxCounter.index [.noReply] y.tx.counters } }
    let backoff := TxState.backoff (s.clock + dt + wait * s.bitTime p)
    let defer := TxState.defer gap ((s.clock + dt) / 1000) (s.port p).params.deferLimit
    let exhausted := (s.elapse dt).failed p x 3 n [.noReply, .retryExhausted]
    let left := n < (s.port p).params.retryLimit + 1
    (w * s.bitTime p ≤ idle → (s.port p).rx.state = .idle →
      (left → 0 < wait → exec (.noReply dt p) s = .next ((s.elapse dt).modPort p (retried backoff))) ∧
      (left → wait = 0 → idle < gap * s.bitTime p →
        exec (.noReply dt p) s = .next ((s.elapse dt).modPort p (retried defer))) ∧
      (left → wait = 0 → gap * s.bitTime p ≤ idle →
        exec (.noReply dt p) s = .next ((s.elapse dt).modPort p fun y =>
          { retried (.sending y.params.window (s.clock + dt)) y with clash := none })) ∧
      (¬left → x.hasTrigger = false → exec (.noReply dt p) s = .next exhausted)) ∧
    (s.Ends dt p → (s.port p).rx.inWait = true → (∀ f, s.screened p = .good f → ¬f.Answers x.frame) →
      (left → 0 < wait →
        exec (.frameEnd dt p) s = exec (.frameEnd 0 p) ((s.elapse dt).modPort p (retried backoff)) ∧
        ∀ c, s.screened p = .failed c →
          exec (.frameEnd dt p) s = .next ((s.frameDone dt p [c] .idle).modPort p (retried backoff))) ∧
      (left → wait = 0 →
        exec (.frameEnd dt p) s = exec (.frameEnd 0 p) ((s.elapse dt).modPort p (retried defer))) ∧
      (¬left → x.hasTrigger = false → exec (.frameEnd dt p) s = exec (.frameEnd 0 p) exhausted))

/-- R70, R71, R114, R117, R125, R126: a frame that exceeds its defer limit, and one that is older than the age limit
when it is selected, fail, with the reasons 2 and 1. What a failure leaves is the same for every reason: a FORWARD
frame that asks for a notice, was unicast as received and is not of type UNDELIVERED becomes a notice at the tail of
its ingress port's normal queue, when that port is below its queue limit without this slot, and else is dropped; any
other slot is freed. AwaitedReplySettlesTheFrame, CollisionBacksOffOrEnds and NoReplyIsRetried have the failures by
BUSY, REFUSE, collision and missing replies. -/
def Obligations.FailedFrameMakesANotice : Prop :=
  (∀ (dt : Nat) (p : Port) (g start limit : Nat) (x : Slot) (s : State),
    (s.port p).tx.state = .defer g start limit → (s.port p).tx.pos = some x → x.marked = false →
    x.hasTrigger = false → limit ≠ 0 → limit < (s.clock + dt) / 1000 - start →
    exec (.deferExhausted dt p) s =
      .next ((s.elapse dt).failed p x 2 (s.port p).tx.attempts [.deferExhausted])) ∧
  (∀ (dt : Nat) (p : Port) (d : DataSlot) (urgent normal : List Slot) (s : State),
    (s.port p).tx.state = .idle → ((s.port p).rx.state = .idle ∨ (s.port p).rx.state = .receiving) →
    ((s.port p).urgent = .data d :: urgent ∧ (s.port p).normal = normal ∨
      (s.port p).urgent = [] ∧ urgent = [] ∧ (s.port p).normal = .data d :: normal) →
    (s.port p).params.ageLimit ≠ 0 → (s.port p).params.ageLimit < (s.clock + dt) / 1000 - d.arrival →
    exec (.selection dt p) s =
      .next (((s.elapse dt).modPort p fun y => { y with urgent := urgent, normal := normal }).failed p (.data d) 1 0
        [.aged])) ∧
  ∀ (p : Port) (d : DataSlot) (reason : Byte) (attempts : Nat) (cs : List TxCounter) (s : State),
    (s.port p).tx.pos = some (.data d) →
    let limitHere := (s.port d.ingress).inForce.queueLimit + (if d.ingress = p then 1 else 0)
    let noticed := d.kind = .forward ∧ d.notify = true ∧ d.origDst ≠ 255 ∧ d.frame.type ≠ .undelivered
    let notice : Slot := .data
      { d with
        kind := .notice
        frame := { dst := d.origSrc, src := (s.port d.ingress).inForce.own, type := .undelivered, urgent := false,
                   seq := 0, cls := 0,
                   payload := [d.origDst, BitVec.ofNat 8 d.origCls.toNat, reason, BitVec.ofNat 8 attempts] }
        arrival := s.now, egress := d.ingress, queue := .normal, notify := false, mark := false }
    (noticed → s.dataAt d.ingress < limitHere →
      s.failed p (.data d) reason attempts cs =
        (s.modPort p fun y => { y with tx := y.tx.ended (cs ++ [.noticesMade]) }).modPort d.ingress fun y =>
          { y with normal := y.normal ++ [notice] }) ∧
    (noticed → limitHere ≤ s.dataAt d.ingress → s.fence = none →
      s.failed p (.data d) reason attempts cs =
        s.modPort p fun y => { y with tx := y.tx.ended (cs ++ [.noticesDropped]) }) ∧
    (¬noticed → s.fence = none →
      s.failed p (.data d) reason attempts cs = s.modPort p fun y => { y with tx := y.tx.ended cs })

/-- R54, R128: a frame with the abandon mark ends FENCED: at once in DEFER, BACKOFF, BUSY-HOLD and AWAIT-REPLY, and
at the end of a send in progress, which sets the last-sent source, or at its collision, counted when ordinary; no
notice is made. R80, R81, R95: idle time then runs from the end of the last byte driven, or from the end of another
station's activity if that is later. That FENCED, commanded while the frame is being sent, lets time pass and does
nothing else is the model's choice (log entry 6), and so is that activity which ends at the very moment the driver goes
off counts as going on, so that assembly waits for 3 bt of idle time (log entry 15). -/
def Obligations.MarkedFrameEndsFenced : Prop :=
  ∀ (dt : Nat) (p : Port) (d : DataSlot) (s : State),
    (s.port p).tx.pos = some (.data d) → d.mark = true →
    ((∃ g st lim, (s.port p).tx.state = .defer g st lim) ∨ (∃ ends, (s.port p).tx.state = .backoff ends) ∨
        (∃ ends, (s.port p).tx.state = .busyHold ends) ∨ (∃ w, (s.port p).tx.state = .awaitReply w) →
      exec (.fenced dt p) s = .next ((s.elapse dt).ended p (.data d) [.fenced])) ∧
    (∀ w start, (s.port p).tx.state = .sending w start →
      let stopped (ended : Nat) (last : Option Byte) : State := (s.elapse dt).modPort p fun x =>
        { x with
          idleSince := max x.idleSince ended
          clash := none
          rx := { x.rx with lastSent := last, holdOff := decide (ended ≤ x.idleSince) } }
      exec (.fenced dt p) s = .next (s.elapse dt) ∧
      (∀ ended, ended = start + (7 + d.frame.payload.length) * 10 * s.bitTime p →
        (s.port p).clash = none → ended ≤ s.clock + dt →
        exec (.sendComplete dt p) s = .next ((stopped ended (some d.frame.src)).ended p (.data d) [.fenced])) ∧
      (∀ k ended, ended = start + k * 10 * s.bitTime p → (s.port p).clash = some k → ended ≤ s.clock + dt →
        exec (.collision dt p k) s = .next ((stopped ended (s.port p).rx.lastSent).ended p (.data d)
          (if k ≤ w then [.collisions, .fenced] else [.fenced]))))

/-! ### Fences, timers and restarts -/

/-- R52, R73: the freeing of an old slot while a fence is pending. When it was the last, the fence ends in the same
event: the holder slot becomes the COMMIT's response with status OK, the active bank, the commit count and a discard
count of 0; else the fence stays as it is. First of the freeing by any outcome, which the statements on outcomes give as
`State.ended`, and so as `State.slotFreed`; then of one event as a whole, a broadcast sent to its end. That activity
which ends at the very moment the driver goes off counts as going on, so that assembly waits, is the model's choice (log
entry 15). -/
def Obligations.LastOldSlotEndsTheFence : Prop :=
  ∀ (p : Port) (d : DataSlot) (f : Fence) (tag : Byte) (args : List Byte) (s : State),
    (s.port p).tx.pos = some (.data d) → s.fence = some f → d.epoch ≠ s.commitCount →
    f.holder.frame.payload = tag :: 7 :: args →
    let record := okRecord tag 7 (s.active.code :: (be32 s.commitCount ++ [0]))
    let fenceEnded (t : State) : State :=
      { t.modPort f.holder.port fun x =>
          { x with normal := x.normal ++ [responseSlot f.holder x.inForce.own record .none] } with
        fence := none
        managers := managersAnswered s.managers f.holder tag record }
    (∀ cs : List TxCounter,
      let freed := s.modPort p fun x => { x with tx := x.tx.ended cs }
      (s.oldCount = 1 → s.ended p (.data d) cs = fenceEnded freed) ∧
      (1 < s.oldCount → s.ended p (.data d) cs = freed)) ∧
    ∀ (dt w start : Nat),
      (s.port p).tx.state = .sending w start → d.mark = false → (s.port p).clash = none → d.frame.dst = 255 →
      let ended := start + (7 + d.frame.payload.length) * 10 * s.bitTime p
      let freed := (s.elapse dt).modPort p fun x =>
        { x with
          idleSince := max x.idleSince ended
          clash := none
          rx := { x.rx with lastSent := some d.frame.src, holdOff := decide (ended ≤ x.idleSince) }
          tx := x.tx.ended [.broadcastSent] }
      ended ≤ s.clock + dt →
      (s.oldCount = 1 → exec (.sendComplete dt p) s = .next (fenceEnded freed)) ∧
      (1 < s.oldCount → exec (.sendComplete dt p) s = .next freed)

/-- R53: a fence that times out: old slots leave the queues, each counted fenced at its port, old slots in
transmit positions get the abandon mark, and the holder slot becomes the COMMIT's response with status
FENCE-TIMEOUT and the number of both. -/
def Obligations.FenceTimesOut : Prop :=
  ∀ (dt : Nat) (f : Fence) (tag : Byte) (args : List Byte) (s : State),
    s.fence = some f → f.deadline ≤ (s.clock + dt) / 1000 → f.holder.frame.payload = tag :: 7 :: args →
    let old (x : Slot) : Bool := match x with | .data d => decide (d.epoch ≠ s.commitCount) | .mgmt _ => false
    let record := [tag, 7, 6, 6, s.active.code] ++ be32 s.commitCount ++
      [BitVec.ofNat 8 (((s.port .A).slots.filter old).length + ((s.port .B).slots.filter old).length)]
    let flush (x : PortState) : PortState :=
      { x with
        urgent := x.urgent.filter fun y => !old y
        normal := x.normal.filter fun y => !old y
        tx := { x.tx with
          pos := x.tx.pos.map fun y =>
            match y with
            | .data d => if d.epoch = s.commitCount then .data d else .data { d with mark := true }
            | .mgmt m => .mgmt m
          counters := raiseAt x.tx.counters TxCounter.fenced.index ((x.urgent ++ x.normal).filter old).length } }
    exec (.fenceTimeout dt) s = .next
      { (((s.elapse dt).modPort .A flush).modPort .B flush).modPort f.holder.port fun x =>
          { x with normal := x.normal ++ [responseSlot f.holder x.inForce.own record .none] } with
        fence := none
        agentCounters := raiseAll AgentCounter.index [.fenceTimeouts] s.agentCounters
        managers := managersAnswered s.managers f.holder tag record }

/-- R28, R44: the end of a meter's interval refills it up to its capacity and starts the next at that moment; an
OPEN session whose deadline is reached lapses, the standby bank left as it stands. -/
def Obligations.MetersRefillAndLeasesLapse : Prop :=
  (∀ (dt : Nat) (i : Fin 16) (s : State), s.meters[i].start + s.meters[i].interval ≤ (s.clock + dt) / 1000 →
    exec (.meterRefill dt i) s = .next
      { s with
        clock := s.clock + dt
        meters := s.meters.set i
          { s.meters[i] with
            tokens := min s.meters[i].capacity (s.meters[i].tokens + s.meters[i].refill)
            start := s.meters[i].start + s.meters[i].interval } }) ∧
  ∀ (dt : Nat) (d : Session) (s : State), s.session = some d → d.deadline ≤ (s.clock + dt) / 1000 →
    exec (.leaseLapse dt) s = .next
      { s with
        clock := s.clock + dt
        session := none
        agentCounters := raiseAll AgentCounter.index [.leaseLapsed] s.agentCounters }

/-- R56, R74, R110, R127, R130, R132, R145 to R147, R169: the terminal outcome of a RESTART-PORT's response, its
delivery or a failure, restarts the port it names, after the response was freed: what the restart flushes, resets, puts
in force and keeps. Every counter stays but those of the outcome and of the restart. A pending fence stays, and ends
with status OK where the flush leaves no old slot; its response stands after the flush. Where the outcome is NO-REPLY at
the end of another frame, a restart of the other port leaves that frame to be handled, in the same event. Two points are
the model's choice: a restart of this very port abandons such a frame uncounted (log entry 7), and a fenced response that
leaves on the restarted port carries the own address just put in force (log entry 8). -/
def Obligations.PortRestartFollowsItsResponse : Prop :=
  ∀ (c : Instr) (p q : Port) (m : MgmtSlot) (rx : List RxCounter) (tx : List TxCounter) (s : State),
    (s.port p).tx.pos = some (.mgmt m) → m.trigger = .restartPort q → s.ResponseEnds p m c rx tx →
    let flushed := if q = p then (s.port q).urgent ++ (s.port q).normal else (s.port q).slots
    let old (x : Slot) : Bool := match x with | .data d => decide (d.epoch ≠ s.commitCount) | .mgmt _ => false
    let fenceEnds : Bool := flushed.any old && (s.port q.other).slots.all fun x => !old x
    let record (f : Fence) : List Byte :=
      okRecord f.holder.tag f.holder.code (s.active.code :: (be32 s.commitCount ++ [0]))
    let answers (r : Port) : List Slot :=
      match s.fence with
      | some f =>
        if fenceEnds = true ∧ f.holder.port = r then
          [responseSlot f.holder (if r = q then (s.port r).staged.own else (s.port r).inForce.own) (record f) .none]
        else []
      | none => []
    let managers := s.managers.map fun e => if e.port = q then { e with pendingTag := none } else e
    let handled := q ≠ p ∧ rx = [] ∧ c = .frameEnd (dtOf c) p
    ∃ t, (handled → exec c s = exec (.frameEnd 0 p) t ∧ (t.port p).rx = (s.port p).rx) ∧
      (¬handled → exec c s = .next t) ∧
      (t.port q).urgent = [] ∧ (t.port q).normal = answers q ∧ (t.port q).tx.state = .idle ∧
      (t.port q).tx.pos = none ∧
      (∀ i : Fin 255, (t.port q).tx.seqTable[i] = 0 ∧ (t.port q).rx.filter[i] = none) ∧
      (t.port q).rx.state = .idle ∧ (t.port q).rx.buffer = [] ∧ (t.port q).rx.lastSent = none ∧
      (t.port q).rx.holdOff = true ∧ (t.port q).clash = none ∧
      (t.port q).inForce = (s.port q).staged ∧ (t.port q).staged = (s.port q).staged ∧
      (t.port q).params = (s.port q).params ∧
      (∀ r, (t.port r).rx.counters =
          raiseAll RxCounter.index (if r = p then rx else []) (s.port r).rx.counters ∧
        (t.port r).tx.counters = raiseAt
          (raiseAll TxCounter.index (if r = p then tx else []) (s.port r).tx.counters)
          TxCounter.flushed.index
          (if r = q then flushed.length + (s.agentQueue.filter fun y => y.port == q).length else 0)) ∧
      t.restartPending = s.restartPending - 1 - (flushed.filter Slot.hasTrigger).length ∧
      t.agentCounters = raiseAll AgentCounter.index [.portRestarts] s.agentCounters ∧
      t.agentQueue = s.agentQueue.filter (fun r => r.port != q) ∧
      t.fence = (if fenceEnds then none else s.fence) ∧
      t.managers =
        (match s.fence with
        | some f => if fenceEnds then managersAnswered managers f.holder f.holder.tag (record f) else managers
        | none => managers) ∧
      (q ≠ p → (t.port p).tx = (s.port p).tx.ended tx ∧ (t.port p).urgent = (s.port p).urgent ∧
        (t.port p).normal = (s.port p).normal ++ answers p ∧ (t.port p).inForce = (s.port p).inForce ∧
        (t.port p).staged = (s.port p).staged ∧ (t.port p).params = (s.port p).params ∧
        (t.port p).rx.filter = (s.port p).rx.filter) ∧
      (q = p → t.port p.other =
        { s.port p.other with normal := (s.port p.other).normal ++ answers p.other }) ∧
      t.bankX = s.bankX ∧ t.bankY = s.bankY ∧ t.active = s.active ∧ t.commitCount = s.commitCount ∧
      t.session = s.session ∧ t.meters = s.meters ∧ t.clock = s.clock + dtOf c ∧ t.pins = s.pins ∧
      t.pending = s.pending

/-- R29, R40, R56, R75, R111, R127, R130, R132, R145 to R147, R170: the terminal outcome of a RESTART's response, its
delivery or a failure, sets off the soft restart: every place emptied, both ports reset with their staged values in
force, the session and the fence ended, the fence with no response, the meters full, the pending tags cleared; banks,
designation, managers and caches and immediate parameters kept, and every counter but those of the outcome and of the
restart. That a frame whose end made the outcome NO-REPLY is abandoned uncounted is the model's choice (log entry 7). -/
def Obligations.SoftRestartFollowsItsResponse : Prop :=
  ∀ (c : Instr) (p : Port) (m : MgmtSlot) (rx : List RxCounter) (tx : List TxCounter) (s : State),
    (s.port p).tx.pos = some (.mgmt m) → m.trigger = .restart → s.ResponseEnds p m c rx tx →
    ∃ t, exec c s = .next t ∧
      (∀ q : Port,
        (t.port q).urgent = [] ∧ (t.port q).normal = [] ∧ (t.port q).tx.state = .idle ∧
        (t.port q).tx.pos = none ∧ (t.port q).rx.state = .idle ∧ (t.port q).rx.buffer = [] ∧
        (t.port q).rx.holdOff = true ∧ (t.port q).rx.lastSent = none ∧
        (∀ i : Fin 255, (t.port q).tx.seqTable[i] = 0 ∧ (t.port q).rx.filter[i] = none) ∧
        (t.port q).inForce = (s.port q).staged ∧ (t.port q).staged = (s.port q).staged ∧
        (t.port q).params = (s.port q).params ∧ (t.port q).clash = none ∧
        (t.port q).rx.counters =
          raiseAll RxCounter.index (if q = p then rx else []) (s.port q).rx.counters ∧
        (t.port q).tx.counters = raiseAt
          (raiseAll TxCounter.index (if q = p then tx else []) (s.port q).tx.counters)
          TxCounter.flushed.index
          ((s.port q).urgent.length + (s.port q).normal.length +
            (if q = p then 0 else (s.port q).tx.pos.toList.length) +
            (s.agentQueue.filter fun r => r.port == q).length)) ∧
      t.freeCount = 32 ∧ t.agentQueue = [] ∧ t.fence = none ∧ t.session = none ∧ t.restartPending = 0 ∧
      (∀ i : Fin 16, t.meters[i] =
        { s.meters[i] with tokens := s.meters[i].capacity, start := (s.clock + dtOf c) / 1000 }) ∧
      t.managers = s.managers.map (fun e => { e with pendingTag := none }) ∧
      t.agentCounters = raiseAll AgentCounter.index [.restarts] s.agentCounters ∧
      t.bankX = s.bankX ∧ t.bankY = s.bankY ∧ t.active = s.active ∧ t.commitCount = s.commitCount ∧
      t.clock = s.clock + dtOf c ∧ t.pins = s.pins ∧ t.pending = s.pending

/-! ### The management commands -/

/-- R151, R182: IDENTIFY, for a manager and for any other station: its 23 bytes. That the fifth, the silicon
revision, is one byte holding 1 is the model's reading (log entry 13). -/
def Obligations.IdentifyReports : Prop :=
  ∀ (dt : Nat) (tag : Byte) (m : MgmtSlot) (s : State), s.Heads m tag 1 [] → s.Fresh m tag →
    exec (.identify dt) s = .next (s.answered dt m tag (okRecord tag 1
      (([12, 55, 1, 156, 1, (s.port .A).inForce.own, (s.port .B).inForce.own, (s.port .A).inForce.rate.code,
          (s.port .B).inForce.rate.code, 32, 128, 32, 16, s.active.code] : List Byte) ++
        be32 s.commitCount ++
        (match s.session with | some d => [1, portCode d.port, d.addr] | none => ([0, 0, 0] : List Byte)) ++
        [(if s.fence.isSome then (1 : Byte) else 0), ((s.rightOf m).map Right.code).getD 0])) .none)

/-- R150, R159, R160, R166, R168, R181: READ-RULE, READ-PROFILE, READ-PORT and READ-STORE return what stands and change
nothing; a selector that holds no defined value is refused BAD-ARGUMENT, and a run that leaves the table BAD-INDEX. -/
def Obligations.ReadsReturnWhatStands : Prop :=
  ∀ (dt : Nat) (tag : Byte) (m : MgmtSlot) (s : State), s.Fresh m tag → s.rightOf m ≠ none →
    (∀ sel first count : Byte, (sel = 0 ∨ sel = 1) →
      let n := if sel = 0 then s.active else s.active.other
      let b := s.bank n
      (s.Heads m tag 9 [sel, first, count] →
        (1 ≤ count.toNat → count.toNat ≤ 8 → first.toNat + count.toNat ≤ 128 →
          exec (.readRule dt) s = .next (s.answered dt m tag (okRecord tag 9 (n.code ::
            ((List.range count.toNat).map fun k =>
              encodeRule ((b.entries[first.toNat + k]?).getD powerOnEntry) ++
                be32 ((b.hits[first.toNat + k]?).getD 0)).flatten)) .none)) ∧
        (count = 0 ∨ 8 < count.toNat ∨ 128 < first.toNat + count.toNat →
          exec (.readRule dt) s = .next (s.answered dt m tag (refusalRecord tag 9 .badIndex) .none))) ∧
      (s.Heads m tag 10 [sel, first, count] →
        (1 ≤ count.toNat → count.toNat ≤ 16 → first.toNat + count.toNat ≤ 32 →
          exec (.readProfile dt) s = .next (s.answered dt m tag (okRecord tag 10 (n.code ::
            ((List.range count.toNat).map fun k =>
              encodeProfile ((b.profiles[first.toNat + k]?).getD powerOnProfile)).flatten)) .none)) ∧
        (count = 0 ∨ 16 < count.toNat ∨ 32 < first.toNat + count.toNat →
          exec (.readProfile dt) s = .next (s.answered dt m tag (refusalRecord tag 10 .badIndex) .none)))) ∧
    (∀ sel first count : Byte, 2 ≤ sel.toNat →
      (s.Heads m tag 9 [sel, first, count] →
        exec (.readRule dt) s = .next (s.answered dt m tag (refusalRecord tag 9 .badArgument) .none)) ∧
      (s.Heads m tag 10 [sel, first, count] →
        exec (.readProfile dt) s = .next (s.answered dt m tag (refusalRecord tag 10 .badArgument) .none)) ∧
      (s.Heads m tag 15 [sel] →
        exec (.readPort dt) s = .next (s.answered dt m tag (refusalRecord tag 15 .badArgument) .none))) ∧
    (∀ (sel : Byte) (p : Port), (sel = 0 ∧ p = .A ∨ sel = 1 ∧ p = .B) → s.Heads m tag 15 [sel] →
      let q := (s.port p).params
      let one (v : Nat) : Byte := BitVec.ofNat 8 v
      exec (.readPort dt) s = .next (s.answered dt m tag (okRecord tag 15
        (sel :: ([one q.replyWait, one q.urgentGap, one q.normalGap, one q.window, one q.retryLimit, q.ladder[0],
            q.ladder[1], q.ladder[2], q.ladder[3], q.ladder[4], q.ladder[5], q.ladder[6], q.ladder[7],
            one q.busyLimit, one q.busyHold, one (q.deferLimit / 256), one q.deferLimit, one (q.ageLimit / 256),
            one q.ageLimit, one (q.dupWindow / 256), one q.dupWindow] ++
          [(s.port p).inForce.rate.code, (s.port p).staged.rate.code, (s.port p).inForce.own,
            (s.port p).staged.own, BitVec.ofNat 8 (s.port p).inForce.queueLimit,
            BitVec.ofNat 8 (s.port p).staged.queueLimit]))) .none)) ∧
    (s.Heads m tag 17 [] →
      exec (.readStore dt) s = .next (s.answered dt m tag (okRecord tag 17
        ([s.freeCount, s.dataCount, s.mgmtCount, (s.port .A).urgent.length, (s.port .A).normal.length,
          (s.port .B).urgent.length, (s.port .B).normal.length, s.agentQueue.length,
          (if (s.port .A).tx.pos.isSome then 1 else 0) + (if (s.port .B).tx.pos.isSome then 2 else 0),
          (if s.fence.isSome then s.oldCount else 255)].map (BitVec.ofNat 8))) .none))

/-- R163, with the run of R150: READ-METER returns capacity, refill amount, interval and tokens of each meter of
its run, and changes nothing; a run that leaves the table is refused BAD-INDEX. -/
def Obligations.ReadMeterReturnsTheRun : Prop :=
  ∀ (dt : Nat) (tag first count : Byte) (m : MgmtSlot) (s : State), s.Heads m tag 13 [first, count] →
    s.Fresh m tag → s.rightOf m ≠ none →
    let bytes (v : Nat) : List Byte := [BitVec.ofNat 8 (v / 256), BitVec.ofNat 8 v]
    (1 ≤ count.toNat → count.toNat ≤ 16 → first.toNat + count.toNat ≤ 16 →
      exec (.readMeter dt) s = .next (s.answered dt m tag (okRecord tag 13
        (((List.finRange 16).filter fun i => decide (first.toNat ≤ i.val ∧ i.val < first.toNat + count.toNat)).map
          fun i => bytes s.meters[i].capacity ++ bytes s.meters[i].refill ++ bytes s.meters[i].interval ++
            bytes s.meters[i].tokens).flatten) .none)) ∧
    (count = 0 ∨ 16 < count.toNat ∨ 16 < first.toNat + count.toNat →
      exec (.readMeter dt) s = .next (s.answered dt m tag (refusalRecord tag 13 .badIndex) .none))

/-- R150, R161, R167, R173, R181: READ-HITS and READ-COUNTERS return the counts as they stand and, with the zero flag,
set those they returned to 0 and no others. A read of the agent group includes its own execution. An undefined bank,
group or zero flag is refused BAD-ARGUMENT, and after that a run that leaves the table BAD-INDEX. -/
def Obligations.CountsAreReadAndZeroed : Prop :=
  ∀ (dt : Nat) (tag : Byte) (m : MgmtSlot) (s : State) (zero : Bool), s.Fresh m tag → s.rightOf m ≠ none →
    let flag : Byte := if zero then 1 else 0
    (∀ sel first count z : Byte, s.Heads m tag 11 [sel, first, count, z] → 2 ≤ sel.toNat ∨ 2 ≤ z.toNat →
      exec (.readHits dt) s = .next (s.answered dt m tag (refusalRecord tag 11 .badArgument) .none)) ∧
    (∀ sel first count : Byte, (sel = 0 ∨ sel = 1) → s.Heads m tag 11 [sel, first, count, flag] →
      count = 0 ∨ 48 < count.toNat ∨ 128 < first.toNat + count.toNat →
      exec (.readHits dt) s = .next (s.answered dt m tag (refusalRecord tag 11 .badIndex) .none)) ∧
    (∀ g z : Byte, s.Heads m tag 16 [g, z] → 5 ≤ g.toNat ∨ 2 ≤ z.toNat →
      exec (.readCounters dt) s = .next (s.answered dt m tag (refusalRecord tag 16 .badArgument) .none)) ∧
    (∀ sel first count : Byte, (sel = 0 ∨ sel = 1) → s.Heads m tag 11 [sel, first, count, flag] →
      1 ≤ count.toNat → count.toNat ≤ 48 → first.toNat + count.toNat ≤ 128 →
      let n := if sel = 0 then s.active else s.active.other
      exec (.readHits dt) s = .next
        ((s.answered dt m tag (okRecord tag 11 (n.code ::
          ((List.range count.toNat).map fun k => be32 (((s.bank n).hits[first.toNat + k]?).getD 0)).flatten))
          .none).modBank n fun b =>
            { b with hits := Vector.ofFn fun (i : Fin 128) =>
                if zero = true ∧ first.toNat ≤ i.val ∧ i.val < first.toNat + count.toNat then 0
                else b.hits[i] })) ∧
    (∀ (g : Byte) (p : Port), (g = 0 ∧ p = .A ∨ g = 2 ∧ p = .B) → s.Heads m tag 16 [g, flag] →
      exec (.readCounters dt) s = .next
        ((s.answered dt m tag (okRecord tag 16 (g ::
          ((s.port p).rx.counters.toList.map be32).flatten)) .none).modPort p fun x =>
            if zero then { x with rx := { x.rx with counters := Vector.replicate 18 0 } } else x)) ∧
    (∀ (g : Byte) (p : Port), (g = 1 ∧ p = .A ∨ g = 3 ∧ p = .B) → s.Heads m tag 16 [g, flag] →
      exec (.readCounters dt) s = .next
        ((s.answered dt m tag (okRecord tag 16 (g ::
          ((s.port p).tx.counters.toList.map be32).flatten)) .none).modPort p fun x =>
            if zero then { x with tx := { x.tx with counters := Vector.replicate 17 0 } } else x)) ∧
    (s.Heads m tag 16 [4, flag] →
      let counters := raiseAll AgentCounter.index [.requestsTaken] s.agentCounters
      exec (.readCounters dt) s = .next
        { s.answered dt m tag (okRecord tag 16 (4 :: (counters.toList.map be32).flatten)) .none with
          agentCounters := if zero then Vector.replicate 11 0 else counters })

/-- R47, R134, R137, R152, R153, R184: ENROL makes the requester the first manager of an empty table with ENROL_EN
high, whatever its arguments name; from a WRITE manager it adds an entry, is refused TABLE-FULL when 6 stand, or
changes the right of an entry, an owner that becomes READ losing its session; DISMISS removes an entry, and with it
the session it owns, and is refused NOT-FOUND when there is none. Neither takes the last WRITE manager away while
ENROL_EN is low, and an undefined argument is refused by both. -/
def Obligations.ManagersAreEnrolledAndDismissed : Prop :=
  ∀ (dt : Nat) (en : Bool) (tag : Byte) (m : MgmtSlot) (s : State), s.Fresh m tag →
    let pins := { s.pins with enrolEn := en }
    let refused (code : Byte) (st : Status) : State :=
      { s.answered dt m tag (refusalRecord tag code st) .none with pins := pins }
    (∀ x y z : Byte, s.Heads m tag 2 [x, y, z] → s.managers = [] → en = true →
      let record := okRecord tag 2 [portCode m.port, m.requester, 2]
      exec (.enrol dt en) s = .next
        { s.answered dt m tag record .none with
          pins := pins
          managers := [{ port := m.port, addr := m.requester, right := .write, pendingTag := none,
                         last := if tag = 0 then none else some (tag, record) }] }) ∧
    (s.rightOf m = some .write →
      (∀ pc a rc : Byte, s.Heads m tag 2 [pc, a, rc] → 2 ≤ pc.toNat ∨ a = 255 ∨ rc = 0 ∨ 3 ≤ rc.toNat →
        exec (.enrol dt en) s = .next (refused 2 .badArgument)) ∧
      (∀ pc a : Byte, s.Heads m tag 3 [pc, a] → 2 ≤ pc.toNat ∨ a = 255 →
        exec (.dismiss dt en) s = .next (refused 3 .badArgument)) ∧
      ∀ (pc a : Byte) (p : Port), (pc = 0 ∧ p = .A ∨ pc = 1 ∧ p = .B) → a ≠ 255 →
        let lastWriter := en = false ∧ ∀ x ∈ s.managers, x.right = .write → x.port = p ∧ x.addr = a
        let withoutOwner := s.session.filter fun d => !(d.port == p && d.addr == a)
        (∀ (rc : Byte) (r : Right), (rc = 1 ∧ r = .read ∨ rc = 2 ∧ r = .write) → s.Heads m tag 2 [pc, a, rc] →
          (s.manager p a = none →
            (6 ≤ s.managers.length → exec (.enrol dt en) s = .next (refused 2 .tableFull)) ∧
            (s.managers.length < 6 →
              exec (.enrol dt en) s = .next
                { s.answered dt m tag (okRecord tag 2 [pc, a, rc]) .none with
                  pins := pins
                  managers := managersAnswered s.managers m tag (okRecord tag 2 [pc, a, rc]) ++
                    [{ port := p, addr := a, right := r, pendingTag := none, last := none }] })) ∧
          (∀ e, s.manager p a = some e →
            (e.right = .write → r = .read → lastWriter →
              exec (.enrol dt en) s = .next (refused 2 .lastManager)) ∧
            (e.right = .read ∨ r = .write ∨ ¬lastWriter →
              exec (.enrol dt en) s = .next
                { s.answered dt m tag (okRecord tag 2 [pc, a, rc]) .none with
                  pins := pins
                  session := if e.right = .write ∧ r = .read then withoutOwner else s.session
                  managers := managersAnswered
                    (s.managers.map fun x => if x.port = p ∧ x.addr = a then { x with right := r } else x) m tag
                    (okRecord tag 2 [pc, a, rc]) }))) ∧
        (s.Heads m tag 3 [pc, a] →
          (s.manager p a = none → exec (.dismiss dt en) s = .next (refused 3 .notFound)) ∧
          (∀ e, s.manager p a = some e →
            (e.right = .write → lastWriter → exec (.dismiss dt en) s = .next (refused 3 .lastManager)) ∧
            (e.right = .read ∨ ¬lastWriter →
              exec (.dismiss dt en) s = .next
                { s.answered dt m tag (okRecord tag 3 []) .none with
                  pins := pins
                  session := withoutOwner
                  managers := (managersAnswered s.managers m tag (okRecord tag 3 [])).filter fun x =>
                    !(x.port == p && x.addr == a) }))))

/-- R41, R42, R154: OPEN-EDIT, the session NONE or the requester's, opens or refreshes the session and applies its
start mode to the standby bank; a session of another owner holds it off, and the response names that owner. Before that, a
lease above 120 or an undefined start mode is refused BAD-ARGUMENT and changes nothing, the owner's lease included. -/
def Obligations.OpenEditOpensTheSession : Prop :=
  ∀ (dt : Nat) (tag lease mode : Byte) (m : MgmtSlot) (s : State), s.Heads m tag 4 [lease, mode] → s.Fresh m tag →
    s.rightOf m = some .write →
    let secs := if lease = 0 then 30 else lease.toNat
    (120 < lease.toNat ∨ 2 < mode.toNat →
      exec (.openEdit dt) s = .next (s.answered dt m tag (refusalRecord tag 4 .badArgument) .none)) ∧
    (lease.toNat ≤ 120 → mode.toNat ≤ 2 → s.session = none ∨ s.ownsSession m.port m.requester = true →
      exec (.openEdit dt) s = .next
        ({ s.answered dt m tag (okRecord tag 4 [s.active.other.code, BitVec.ofNat 8 secs])
            .none with
          session := some { port := m.port, addr := m.requester, leaseSecs := secs,
                            deadline := (s.clock + dt) / 1000 + secs * 1000 } }.modBank s.active.other fun b =>
          if mode = 0 then b
          else if mode = 1 then
            { entries := s.activeBank.entries, profiles := s.activeBank.profiles, hits := Vector.replicate 128 0 }
          else
            { entries := Vector.replicate 128 powerOnEntry, profiles := Vector.replicate 32 powerOnProfile,
              hits := Vector.replicate 128 0 })) ∧
    (∀ d, lease.toNat ≤ 120 → mode.toNat ≤ 2 → s.session = some d → s.ownsSession m.port m.requester = false →
      exec (.openEdit dt) s = .next (s.answered dt m tag
        [tag, 4, 4, 2, portCode d.port, d.addr] .none))

/-- R43, R45, R155, R156: WRITE-RULE and WRITE-PROFILE from the session's owner write one standby entry, its hit
count set to 0, or one standby profile, and refresh the lease; a bad index or field refreshes the lease and writes
nothing; from any other manager they are refused NO-SESSION. -/
def Obligations.OwnerWritesTheStandbyBank : Prop :=
  ∀ (dt : Nat) (tag idx : Byte) (bytes : List Byte) (m : MgmtSlot) (s : State),
    s.Fresh m tag → s.rightOf m = some .write →
    let lease := s.session.map fun d => { d with deadline := (s.clock + dt) / 1000 + d.leaseSecs * 1000 }
    (s.Heads m tag 5 (idx :: bytes) → bytes.length = 12 →
      (s.ownsSession m.port m.requester = true →
        (∀ (h : idx.toNat < 128) (e : RuleEntry), decodeRule bytes = some e →
          exec (.writeRule dt) s = .next
            ({ s.answered dt m tag (okRecord tag 5 []) .none with session := lease }.modBank s.active.other fun b =>
              { b with entries := b.entries.set idx.toNat e h, hits := b.hits.set idx.toNat 0 h })) ∧
        (128 ≤ idx.toNat → exec (.writeRule dt) s = .next
          { s.answered dt m tag (refusalRecord tag 5 .badIndex) .none with session := lease }) ∧
        (idx.toNat < 128 → decodeRule bytes = none → exec (.writeRule dt) s = .next
          { s.answered dt m tag (refusalRecord tag 5 .badArgument) .none with session := lease })) ∧
      (s.ownsSession m.port m.requester = false →
        exec (.writeRule dt) s = .next (s.answered dt m tag (refusalRecord tag 5 .noSession) .none))) ∧
    (s.Heads m tag 6 (idx :: bytes) → bytes.length = 4 →
      (s.ownsSession m.port m.requester = true →
        (∀ (h : idx.toNat < 32) (q : Profile), decodeProfile bytes = some q →
          exec (.writeProfile dt) s = .next
            ({ s.answered dt m tag (okRecord tag 6 []) .none with session := lease }.modBank s.active.other fun b =>
              { b with profiles := b.profiles.set idx.toNat q h })) ∧
        (32 ≤ idx.toNat → exec (.writeProfile dt) s = .next
          { s.answered dt m tag (refusalRecord tag 6 .badIndex) .none with session := lease }) ∧
        (idx.toNat < 32 → decodeProfile bytes = none → exec (.writeProfile dt) s = .next
          { s.answered dt m tag (refusalRecord tag 6 .badArgument) .none with session := lease })) ∧
      (s.ownsSession m.port m.requester = false →
        exec (.writeProfile dt) s = .next (s.answered dt m tag (refusalRecord tag 6 .noSession) .none)))

/-- R48, R50, R51, R157: COMMIT. Its refusals in their order; taken, it swaps the designation, raises the commit
count and commits, and ends the session; in mode SWAP, or in mode FENCE with no old slot, it is answered at once,
else its slot goes to the fence holder and the fence is pending. -/
def Obligations.CommitSwapsAndFences : Prop :=
  ∀ (dt : Nat) (tag mode hi lo : Byte) (m : MgmtSlot) (s : State), s.Heads m tag 7 [mode, hi, lo] →
    s.Fresh m tag → s.rightOf m = some .write →
    let timeout := hi.toNat * 256 + lo.toNat
    let valid := mode.toNat ≤ 1 ∧ (timeout = 0 ∨ (10 ≤ timeout ∧ timeout ≤ 5000))
    let record := okRecord tag 7
      (s.active.other.code :: (be32 (s.commitCount + 1) ++ [0]))
    let isOld (x : Slot) : Bool :=
      match x with | .data d => decide (d.epoch ≠ s.commitCount + 1) | .mgmt _ => false
    let noOld := ∀ p : Port, ∀ x ∈ (s.port p).slots, isOld x = false
    (s.ownsSession m.port m.requester = false →
      exec (.commit dt) s = .next (s.answered dt m tag (refusalRecord tag 7 .noSession) .none)) ∧
    (s.ownsSession m.port m.requester = true →
      (s.fence.isSome = true →
        exec (.commit dt) s = .next (s.answered dt m tag (refusalRecord tag 7 .fencePending) .none)) ∧
      (s.fence = none →
        (¬valid →
          exec (.commit dt) s = .next (s.answered dt m tag (refusalRecord tag 7 .badArgument) .none)) ∧
        (valid → mode = 0 ∨ noOld →
          exec (.commit dt) s = .next
            { s.answered dt m tag record .none with
              active := s.active.other
              commitCount := s.commitCount + 1
              session := none
              agentCounters := raiseAll AgentCounter.index [.requestsTaken, .commits] s.agentCounters }) ∧
        (valid → mode = 1 → ¬noOld →
          exec (.commit dt) s = .next
            { s with
              clock := s.clock + dt
              agentQueue := s.agentQueue.tail
              active := s.active.other
              commitCount := s.commitCount + 1
              session := none
              fence := some { deadline := (s.clock + dt) / 1000 + (if timeout = 0 then 500 else timeout),
                              holder := m }
              agentCounters := raiseAll AgentCounter.index [.requestsTaken, .commits] s.agentCounters })))

/-- R158: ABANDON from the session's owner makes the session NONE; from any other manager that may write it is
refused NO-SESSION; nothing else changes either way, a pending fence included. -/
def Obligations.AbandonEndsTheSession : Prop :=
  ∀ (dt : Nat) (tag : Byte) (m : MgmtSlot) (s : State), s.Heads m tag 8 [] → s.Fresh m tag →
    s.rightOf m = some .write →
    ((∃ d, s.session = some d ∧ d.port = m.port ∧ d.addr = m.requester) →
      exec (.abandon dt) s = .next { s.answered dt m tag (okRecord tag 8 []) .none with session := none }) ∧
    ((∀ d, s.session = some d → ¬(d.port = m.port ∧ d.addr = m.requester)) →
      exec (.abandon dt) s = .next (s.answered dt m tag (refusalRecord tag 8 .noSession) .none))

/-- R35, R162, R164, R165, R181: SET-METER writes a meter whole, with its tokens at the new capacity and a fresh
interval; SET-PORT writes each field its mask gives, immediate ones in force and staged ones staged. An undefined port,
a mask with bit 14 or 15, a given field out of its range, and a block that would break the order of reply wait, urgent
gap and normal gap are refused BAD-ARGUMENT as a whole. -/
def Obligations.MetersAndPortsAreSet : Prop :=
  ∀ (dt : Nat) (tag : Byte) (m : MgmtSlot) (s : State), s.Fresh m tag → s.rightOf m = some .write →
    (∀ idx c1 c0 r1 r0 n1 n0 : Byte, s.Heads m tag 12 [idx, c1, c0, r1, r0, n1, n0] →
      let capacity := c1.toNat * 256 + c0.toNat
      let interval := n1.toNat * 256 + n0.toNat
      (∀ h : idx.toNat < 16, 1 ≤ interval → interval ≤ 1000 →
        exec (.setMeter dt) s = .next
          { s.answered dt m tag (okRecord tag 12 []) .none with
            meters := s.meters.set idx.toNat
              { capacity := capacity, refill := r1.toNat * 256 + r0.toNat, interval := interval,
                tokens := capacity, start := (s.clock + dt) / 1000 } h }) ∧
      (16 ≤ idx.toNat →
        exec (.setMeter dt) s = .next (s.answered dt m tag (refusalRecord tag 12 .badIndex) .none)) ∧
      (idx.toNat < 16 → interval = 0 ∨ 1000 < interval →
        exec (.setMeter dt) s = .next (s.answered dt m tag (refusalRecord tag 12 .badArgument) .none))) ∧
    (∀ (pc m1 m0 : Byte) (b : List Byte), s.Heads m tag 14 (pc :: m1 :: m0 :: b) → b.length = 24 → 2 ≤ pc.toNat →
      exec (.setPort dt) s = .next (s.answered dt m tag (refusalRecord tag 14 .badArgument) .none)) ∧
    (∀ (pc m1 m0 : Byte) (b : List Byte) (p : Port), s.Heads m tag 14 (pc :: m1 :: m0 :: b) → b.length = 24 →
      (pc = 0 ∧ p = .A ∨ pc = 1 ∧ p = .B) →
      let mask := m1.toNat * 256 + m0.toNat
      let byte (i : Nat) : Nat := (b.getD i 0).toNat
      let one (bit i old : Nat) : Nat := if mask.testBit bit then byte i else old
      let two (bit i old : Nat) : Nat := if mask.testBit bit then byte i * 256 + byte (i + 1) else old
      let within (bit v lo hi : Nat) : Prop := mask.testBit bit = true → lo ≤ v ∧ v ≤ hi
      let inRange : Prop :=
        mask.testBit 14 = false ∧ mask.testBit 15 = false ∧
        within 0 (byte 0) 16 200 ∧ within 1 (byte 1) 24 240 ∧ within 2 (byte 2) 32 250 ∧ within 3 (byte 3) 6 32 ∧
        within 4 (byte 4) 0 15 ∧ within 6 (byte 13) 0 15 ∧ within 7 (byte 14) 1 255 ∧
        within 8 (byte 15 * 256 + byte 16) 0 2000 ∧ within 9 (byte 17 * 256 + byte 18) 0 60000 ∧
        within 10 (byte 19 * 256 + byte 20) 0 10000 ∧ within 11 (byte 21) 0 2 ∧ within 12 (byte 22) 0 254 ∧
        within 13 (byte 23) 4 30
      let q := (s.port p).params
      let g := (s.port p).staged
      let params : Params :=
        { replyWait := one 0 0 q.replyWait, urgentGap := one 1 1 q.urgentGap, normalGap := one 2 2 q.normalGap
          window := one 3 3 q.window, retryLimit := one 4 4 q.retryLimit
          ladder := if mask.testBit 5 then Vector.ofFn fun i => b.getD (5 + i.val) 0 else q.ladder
          busyLimit := one 6 13 q.busyLimit, busyHold := one 7 14 q.busyHold
          deferLimit := two 8 15 q.deferLimit, ageLimit := two 9 17 q.ageLimit
          dupWindow := two 10 19 q.dupWindow }
      (inRange → params.replyWait < params.urgentGap → params.urgentGap < params.normalGap →
        exec (.setPort dt) s = .next ((s.answered dt m tag (okRecord tag 14 []) .none).modPort p fun x =>
          { x with
            params := params
            staged :=
              { rate := if mask.testBit 11 then
                  (if byte 21 = 0 then .k62 else if byte 21 = 1 then .k250 else .k1000) else g.rate
                own := if mask.testBit 12 then b.getD 22 0 else g.own
                queueLimit := one 13 23 g.queueLimit } })) ∧
      (¬inRange ∨ params.urgentGap ≤ params.replyWait ∨ params.normalGap ≤ params.urgentGap →
        exec (.setPort dt) s = .next (s.answered dt m tag (refusalRecord tag 14 .badArgument) .none)))

/-- R144, R169, R170, R181: RESTART-PORT and RESTART answer OK, set the restart trigger of their slot and raise the
restart-pending mark; no block is restarted in the event. RESTART-PORT of an undefined port is refused BAD-ARGUMENT. -/
def Obligations.RestartCommandsSetTheirTrigger : Prop :=
  ∀ (dt : Nat) (tag : Byte) (m : MgmtSlot) (s : State), s.Fresh m tag → s.rightOf m = some .write →
    (∀ (pc : Byte) (p : Port), (pc = 0 ∧ p = .A ∨ pc = 1 ∧ p = .B) → s.Heads m tag 18 [pc] →
      exec (.restartPort dt) s = .next
        { s.answered dt m tag (okRecord tag 18 [pc]) (.restartPort p) with
          restartPending := s.restartPending + 1 }) ∧
    (∀ pc : Byte, s.Heads m tag 18 [pc] → 2 ≤ pc.toNat →
      exec (.restartPort dt) s = .next (s.answered dt m tag (refusalRecord tag 18 .badArgument) .none)) ∧
    (s.Heads m tag 19 [] →
      exec (.restart dt) s = .next
        { s.answered dt m tag (okRecord tag 19 []) .restart with restartPending := s.restartPending + 1 })
end

