-- ==== Sys2Proof/Laws/State.lean ====
section
/-! SUPPORT. The field lemmas of the state's elementary updates: one per field per update, so that no proof
unfolds a record update. -/

namespace Sys2Proof.Machine

variable (s : State)

/-! ### Ports -/

@[simp] theorem State.port_A : s.port .A = s.portA := rfl
@[simp] theorem State.port_B : s.port .B = s.portB := rfl

@[simp] theorem State.port_modPort_same (p : Port) (f : PortState → PortState) :
    (s.modPort p f).port p = f (s.port p) := by cases p <;> rfl

theorem State.port_modPort_ne {p q : Port} (h : q ≠ p) (f : PortState → PortState) :
    (s.modPort p f).port q = s.port q := by
  cases p <;> cases q <;> first | rfl | exact absurd rfl h

theorem State.port_modPort (p q : Port) (f : PortState → PortState) :
    (s.modPort p f).port q = if q = p then f (s.port p) else s.port q := by
  cases p <;> cases q <;> rfl

@[simp] theorem Port.other_ne (p : Port) : p.other ≠ p := by cases p <;> decide
@[simp] theorem Port.ne_other (p : Port) : p ≠ p.other := by cases p <;> decide

/-! ### `modPort` changes nothing but ports -/

@[simp] theorem State.modPort_clock (p : Port) (f : PortState → PortState) :
    (s.modPort p f).clock = s.clock := by cases p <;> rfl
@[simp] theorem State.modPort_pins (p : Port) (f : PortState → PortState) :
    (s.modPort p f).pins = s.pins := by cases p <;> rfl
@[simp] theorem State.modPort_bankX (p : Port) (f : PortState → PortState) :
    (s.modPort p f).bankX = s.bankX := by cases p <;> rfl
@[simp] theorem State.modPort_bankY (p : Port) (f : PortState → PortState) :
    (s.modPort p f).bankY = s.bankY := by cases p <;> rfl
@[simp] theorem State.modPort_active (p : Port) (f : PortState → PortState) :
    (s.modPort p f).active = s.active := by cases p <;> rfl
@[simp] theorem State.modPort_commitCount (p : Port) (f : PortState → PortState) :
    (s.modPort p f).commitCount = s.commitCount := by cases p <;> rfl
@[simp] theorem State.modPort_session (p : Port) (f : PortState → PortState) :
    (s.modPort p f).session = s.session := by cases p <;> rfl
@[simp] theorem State.modPort_fence (p : Port) (f : PortState → PortState) :
    (s.modPort p f).fence = s.fence := by cases p <;> rfl
@[simp] theorem State.modPort_meters (p : Port) (f : PortState → PortState) :
    (s.modPort p f).meters = s.meters := by cases p <;> rfl
@[simp] theorem State.modPort_agentQueue (p : Port) (f : PortState → PortState) :
    (s.modPort p f).agentQueue = s.agentQueue := by cases p <;> rfl
@[simp] theorem State.modPort_managers (p : Port) (f : PortState → PortState) :
    (s.modPort p f).managers = s.managers := by cases p <;> rfl
@[simp] theorem State.modPort_restartPending (p : Port) (f : PortState → PortState) :
    (s.modPort p f).restartPending = s.restartPending := by cases p <;> rfl
@[simp] theorem State.modPort_agentCounters (p : Port) (f : PortState → PortState) :
    (s.modPort p f).agentCounters = s.agentCounters := by cases p <;> rfl
@[simp] theorem State.modPort_pending (p : Port) (f : PortState → PortState) :
    (s.modPort p f).pending = s.pending := by cases p <;> rfl

/-! ### `modBank` changes one bank -/

@[simp] theorem State.modBank_clock (n : BankName) (f : Bank → Bank) :
    (s.modBank n f).clock = s.clock := by cases n <;> rfl
@[simp] theorem State.modBank_pins (n : BankName) (f : Bank → Bank) :
    (s.modBank n f).pins = s.pins := by cases n <;> rfl
@[simp] theorem State.modBank_portA (n : BankName) (f : Bank → Bank) :
    (s.modBank n f).portA = s.portA := by cases n <;> rfl
@[simp] theorem State.modBank_portB (n : BankName) (f : Bank → Bank) :
    (s.modBank n f).portB = s.portB := by cases n <;> rfl
@[simp] theorem State.modBank_active (n : BankName) (f : Bank → Bank) :
    (s.modBank n f).active = s.active := by cases n <;> rfl
@[simp] theorem State.modBank_commitCount (n : BankName) (f : Bank → Bank) :
    (s.modBank n f).commitCount = s.commitCount := by cases n <;> rfl
@[simp] theorem State.modBank_session (n : BankName) (f : Bank → Bank) :
    (s.modBank n f).session = s.session := by cases n <;> rfl
@[simp] theorem State.modBank_fence (n : BankName) (f : Bank → Bank) :
    (s.modBank n f).fence = s.fence := by cases n <;> rfl
@[simp] theorem State.modBank_meters (n : BankName) (f : Bank → Bank) :
    (s.modBank n f).meters = s.meters := by cases n <;> rfl
@[simp] theorem State.modBank_agentQueue (n : BankName) (f : Bank → Bank) :
    (s.modBank n f).agentQueue = s.agentQueue := by cases n <;> rfl
@[simp] theorem State.modBank_managers (n : BankName) (f : Bank → Bank) :
    (s.modBank n f).managers = s.managers := by cases n <;> rfl
@[simp] theorem State.modBank_restartPending (n : BankName) (f : Bank → Bank) :
    (s.modBank n f).restartPending = s.restartPending := by cases n <;> rfl
@[simp] theorem State.modBank_agentCounters (n : BankName) (f : Bank → Bank) :
    (s.modBank n f).agentCounters = s.agentCounters := by cases n <;> rfl
@[simp] theorem State.modBank_pending (n : BankName) (f : Bank → Bank) :
    (s.modBank n f).pending = s.pending := by cases n <;> rfl

@[simp] theorem State.modBank_port (n : BankName) (f : Bank → Bank) (p : Port) :
    (s.modBank n f).port p = s.port p := by cases n <;> cases p <;> rfl

@[simp] theorem State.bank_modBank_same (n : BankName) (f : Bank → Bank) :
    (s.modBank n f).bank n = f (s.bank n) := by cases n <;> rfl

theorem State.bank_modBank_ne {n k : BankName} (h : k ≠ n) (f : Bank → Bank) :
    (s.modBank n f).bank k = s.bank k := by
  cases n <;> cases k <;> first | rfl | exact absurd rfl h

@[simp] theorem State.modPort_bank (p : Port) (f : PortState → PortState) (n : BankName) :
    (s.modPort p f).bank n = s.bank n := by cases p <;> cases n <;> rfl

@[simp] theorem BankName.other_ne (n : BankName) : n.other ≠ n := by cases n <;> decide
@[simp] theorem BankName.ne_other (n : BankName) : n ≠ n.other := by cases n <;> decide
@[simp] theorem BankName.other_other (n : BankName) : n.other.other = n := by cases n <;> rfl

/-! ### `elapse` changes the clock alone -/

@[simp] theorem State.elapse_clock (dt : Nat) : (s.elapse dt).clock = s.clock + dt := rfl
@[simp] theorem State.elapse_port (dt : Nat) (p : Port) : (s.elapse dt).port p = s.port p := by
  cases p <;> rfl
@[simp] theorem State.elapse_bank (dt : Nat) (n : BankName) : (s.elapse dt).bank n = s.bank n := by
  cases n <;> rfl
@[simp] theorem State.elapse_pins (dt : Nat) : (s.elapse dt).pins = s.pins := rfl
@[simp] theorem State.elapse_portA (dt : Nat) : (s.elapse dt).portA = s.portA := rfl
@[simp] theorem State.elapse_portB (dt : Nat) : (s.elapse dt).portB = s.portB := rfl
@[simp] theorem State.elapse_bankX (dt : Nat) : (s.elapse dt).bankX = s.bankX := rfl
@[simp] theorem State.elapse_bankY (dt : Nat) : (s.elapse dt).bankY = s.bankY := rfl
@[simp] theorem State.elapse_active (dt : Nat) : (s.elapse dt).active = s.active := rfl
@[simp] theorem State.elapse_commitCount (dt : Nat) : (s.elapse dt).commitCount = s.commitCount := rfl
@[simp] theorem State.elapse_session (dt : Nat) : (s.elapse dt).session = s.session := rfl
@[simp] theorem State.elapse_fence (dt : Nat) : (s.elapse dt).fence = s.fence := rfl
@[simp] theorem State.elapse_meters (dt : Nat) : (s.elapse dt).meters = s.meters := rfl
@[simp] theorem State.elapse_agentQueue (dt : Nat) : (s.elapse dt).agentQueue = s.agentQueue := rfl
@[simp] theorem State.elapse_managers (dt : Nat) : (s.elapse dt).managers = s.managers := rfl
@[simp] theorem State.elapse_restartPending (dt : Nat) : (s.elapse dt).restartPending = s.restartPending := rfl
@[simp] theorem State.elapse_agentCounters (dt : Nat) : (s.elapse dt).agentCounters = s.agentCounters := rfl
@[simp] theorem State.elapse_pending (dt : Nat) : (s.elapse dt).pending = s.pending := rfl

/-! ### `raiseAgent` changes the agent group alone -/

@[simp] theorem State.raiseAgent_clock (c : AgentCounter) : (s.raiseAgent c).clock = s.clock := rfl
@[simp] theorem State.raiseAgent_pins (c : AgentCounter) : (s.raiseAgent c).pins = s.pins := rfl
@[simp] theorem State.raiseAgent_portA (c : AgentCounter) : (s.raiseAgent c).portA = s.portA := rfl
@[simp] theorem State.raiseAgent_portB (c : AgentCounter) : (s.raiseAgent c).portB = s.portB := rfl
@[simp] theorem State.raiseAgent_bankX (c : AgentCounter) : (s.raiseAgent c).bankX = s.bankX := rfl
@[simp] theorem State.raiseAgent_bankY (c : AgentCounter) : (s.raiseAgent c).bankY = s.bankY := rfl
@[simp] theorem State.raiseAgent_active (c : AgentCounter) : (s.raiseAgent c).active = s.active := rfl
@[simp] theorem State.raiseAgent_commitCount (c : AgentCounter) : (s.raiseAgent c).commitCount = s.commitCount := rfl
@[simp] theorem State.raiseAgent_session (c : AgentCounter) : (s.raiseAgent c).session = s.session := rfl
@[simp] theorem State.raiseAgent_fence (c : AgentCounter) : (s.raiseAgent c).fence = s.fence := rfl
@[simp] theorem State.raiseAgent_meters (c : AgentCounter) : (s.raiseAgent c).meters = s.meters := rfl
@[simp] theorem State.raiseAgent_agentQueue (c : AgentCounter) : (s.raiseAgent c).agentQueue = s.agentQueue := rfl
@[simp] theorem State.raiseAgent_managers (c : AgentCounter) : (s.raiseAgent c).managers = s.managers := rfl
@[simp] theorem State.raiseAgent_restartPending (c : AgentCounter) : (s.raiseAgent c).restartPending = s.restartPending := rfl
@[simp] theorem State.raiseAgent_pending (c : AgentCounter) : (s.raiseAgent c).pending = s.pending := rfl
@[simp] theorem State.raiseAgent_agentCounters (c : AgentCounter) :
    (s.raiseAgent c).agentCounters = raiseAt s.agentCounters c.index 1 := rfl
@[simp] theorem State.raiseAgent_port (c : AgentCounter) (p : Port) : (s.raiseAgent c).port p = s.port p := by
  cases p <;> rfl
@[simp] theorem State.raiseAgent_bank (c : AgentCounter) (n : BankName) : (s.raiseAgent c).bank n = s.bank n := by
  cases n <;> rfl

/-! ### The paths of a port -/

@[simp] theorem State.modRx_rx (p : Port) (f : RxPath → RxPath) : ((s.modRx p f).port p).rx = f (s.port p).rx := by
  simp [State.modRx]
@[simp] theorem State.modRx_tx (p q : Port) (f : RxPath → RxPath) : ((s.modRx p f).port q).tx = (s.port q).tx := by
  rw [State.modRx, State.port_modPort]; split <;> simp_all
@[simp] theorem State.modTx_tx (p : Port) (f : TxPath → TxPath) : ((s.modTx p f).port p).tx = f (s.port p).tx := by
  simp [State.modTx]
@[simp] theorem State.modTx_rx (p q : Port) (f : TxPath → TxPath) : ((s.modTx p f).port q).rx = (s.port q).rx := by
  rw [State.modTx, State.port_modPort]; split <;> simp_all

@[simp] theorem State.modRx_clock (p : Port) (f : RxPath → RxPath) : (s.modRx p f).clock = s.clock := by
  cases p <;> rfl
@[simp] theorem State.modRx_pins (p : Port) (f : RxPath → RxPath) : (s.modRx p f).pins = s.pins := by
  cases p <;> rfl
@[simp] theorem State.modRx_bankX (p : Port) (f : RxPath → RxPath) : (s.modRx p f).bankX = s.bankX := by
  cases p <;> rfl
@[simp] theorem State.modRx_bankY (p : Port) (f : RxPath → RxPath) : (s.modRx p f).bankY = s.bankY := by
  cases p <;> rfl
@[simp] theorem State.modRx_active (p : Port) (f : RxPath → RxPath) : (s.modRx p f).active = s.active := by
  cases p <;> rfl
@[simp] theorem State.modRx_commitCount (p : Port) (f : RxPath → RxPath) : (s.modRx p f).commitCount = s.commitCount := by
  cases p <;> rfl
@[simp] theorem State.modRx_session (p : Port) (f : RxPath → RxPath) : (s.modRx p f).session = s.session := by
  cases p <;> rfl
@[simp] theorem State.modRx_fence (p : Port) (f : RxPath → RxPath) : (s.modRx p f).fence = s.fence := by
  cases p <;> rfl
@[simp] theorem State.modRx_meters (p : Port) (f : RxPath → RxPath) : (s.modRx p f).meters = s.meters := by
  cases p <;> rfl
@[simp] theorem State.modRx_agentQueue (p : Port) (f : RxPath → RxPath) : (s.modRx p f).agentQueue = s.agentQueue := by
  cases p <;> rfl
@[simp] theorem State.modRx_managers (p : Port) (f : RxPath → RxPath) : (s.modRx p f).managers = s.managers := by
  cases p <;> rfl
@[simp] theorem State.modRx_restartPending (p : Port) (f : RxPath → RxPath) : (s.modRx p f).restartPending = s.restartPending := by
  cases p <;> rfl
@[simp] theorem State.modRx_agentCounters (p : Port) (f : RxPath → RxPath) : (s.modRx p f).agentCounters = s.agentCounters := by
  cases p <;> rfl
@[simp] theorem State.modRx_pending (p : Port) (f : RxPath → RxPath) : (s.modRx p f).pending = s.pending := by
  cases p <;> rfl
@[simp] theorem State.modRx_port_urgent (p q : Port) (f : RxPath → RxPath) :
    ((s.modRx p f).port q).urgent = (s.port q).urgent := by cases p <;> cases q <;> rfl
@[simp] theorem State.modRx_port_normal (p q : Port) (f : RxPath → RxPath) :
    ((s.modRx p f).port q).normal = (s.port q).normal := by cases p <;> cases q <;> rfl
@[simp] theorem State.modRx_port_params (p q : Port) (f : RxPath → RxPath) :
    ((s.modRx p f).port q).params = (s.port q).params := by cases p <;> cases q <;> rfl
@[simp] theorem State.modRx_port_inForce (p q : Port) (f : RxPath → RxPath) :
    ((s.modRx p f).port q).inForce = (s.port q).inForce := by cases p <;> cases q <;> rfl
@[simp] theorem State.modRx_port_staged (p q : Port) (f : RxPath → RxPath) :
    ((s.modRx p f).port q).staged = (s.port q).staged := by cases p <;> cases q <;> rfl
@[simp] theorem State.modRx_port_idleSince (p q : Port) (f : RxPath → RxPath) :
    ((s.modRx p f).port q).idleSince = (s.port q).idleSince := by cases p <;> cases q <;> rfl
@[simp] theorem State.modRx_port_clash (p q : Port) (f : RxPath → RxPath) :
    ((s.modRx p f).port q).clash = (s.port q).clash := by cases p <;> cases q <;> rfl
@[simp] theorem State.modTx_clock (p : Port) (f : TxPath → TxPath) : (s.modTx p f).clock = s.clock := by
  cases p <;> rfl
@[simp] theorem State.modTx_pins (p : Port) (f : TxPath → TxPath) : (s.modTx p f).pins = s.pins := by
  cases p <;> rfl
@[simp] theorem State.modTx_bankX (p : Port) (f : TxPath → TxPath) : (s.modTx p f).bankX = s.bankX := by
  cases p <;> rfl
@[simp] theorem State.modTx_bankY (p : Port) (f : TxPath → TxPath) : (s.modTx p f).bankY = s.bankY := by
  cases p <;> rfl
@[simp] theorem State.modTx_active (p : Port) (f : TxPath → TxPath) : (s.modTx p f).active = s.active := by
  cases p <;> rfl
@[simp] theorem State.modTx_commitCount (p : Port) (f : TxPath → TxPath) : (s.modTx p f).commitCount = s.commitCount := by
  cases p <;> rfl
@[simp] theorem State.modTx_session (p : Port) (f : TxPath → TxPath) : (s.modTx p f).session = s.session := by
  cases p <;> rfl
@[simp] theorem State.modTx_fence (p : Port) (f : TxPath → TxPath) : (s.modTx p f).fence = s.fence := by
  cases p <;> rfl
@[simp] theorem State.modTx_meters (p : Port) (f : TxPath → TxPath) : (s.modTx p f).meters = s.meters := by
  cases p <;> rfl
@[simp] theorem State.modTx_agentQueue (p : Port) (f : TxPath → TxPath) : (s.modTx p f).agentQueue = s.agentQueue := by
  cases p <;> rfl
@[simp] theorem State.modTx_managers (p : Port) (f : TxPath → TxPath) : (s.modTx p f).managers = s.managers := by
  cases p <;> rfl
@[simp] theorem State.modTx_restartPending (p : Port) (f : TxPath → TxPath) : (s.modTx p f).restartPending = s.restartPending := by
  cases p <;> rfl
@[simp] theorem State.modTx_agentCounters (p : Port) (f : TxPath → TxPath) : (s.modTx p f).agentCounters = s.agentCounters := by
  cases p <;> rfl
@[simp] theorem State.modTx_pending (p : Port) (f : TxPath → TxPath) : (s.modTx p f).pending = s.pending := by
  cases p <;> rfl
@[simp] theorem State.modTx_port_urgent (p q : Port) (f : TxPath → TxPath) :
    ((s.modTx p f).port q).urgent = (s.port q).urgent := by cases p <;> cases q <;> rfl
@[simp] theorem State.modTx_port_normal (p q : Port) (f : TxPath → TxPath) :
    ((s.modTx p f).port q).normal = (s.port q).normal := by cases p <;> cases q <;> rfl
@[simp] theorem State.modTx_port_params (p q : Port) (f : TxPath → TxPath) :
    ((s.modTx p f).port q).params = (s.port q).params := by cases p <;> cases q <;> rfl
@[simp] theorem State.modTx_port_inForce (p q : Port) (f : TxPath → TxPath) :
    ((s.modTx p f).port q).inForce = (s.port q).inForce := by cases p <;> cases q <;> rfl
@[simp] theorem State.modTx_port_staged (p q : Port) (f : TxPath → TxPath) :
    ((s.modTx p f).port q).staged = (s.port q).staged := by cases p <;> cases q <;> rfl
@[simp] theorem State.modTx_port_idleSince (p q : Port) (f : TxPath → TxPath) :
    ((s.modTx p f).port q).idleSince = (s.port q).idleSince := by cases p <;> cases q <;> rfl
@[simp] theorem State.modTx_port_clash (p q : Port) (f : TxPath → TxPath) :
    ((s.modTx p f).port q).clash = (s.port q).clash := by cases p <;> cases q <;> rfl

end Sys2Proof.Machine
end

