-- ==== Sys2Proof/Laws/Agent.lean ====
section
/-! SUPPORT. The management agent: what an execution event is, said once for its shared operations. -/

namespace Sys2Proof.Machine

/-! ### Tags, codes and arguments of a request -/

theorem MgmtSlot.tag_eq {m : MgmtSlot} {tag : Byte} {rest : List Byte} (h : m.frame.payload = tag :: rest) :
    m.tag = tag := by simp [MgmtSlot.tag, Frame.tag, byteAt, h]

theorem MgmtSlot.code_eq {m : MgmtSlot} {tag code : Byte} {args : List Byte}
    (h : m.frame.payload = tag :: code :: args) : m.code = code := by simp [MgmtSlot.code, byteAt, h]

theorem MgmtSlot.args_eq {m : MgmtSlot} {tag code : Byte} {args : List Byte}
    (h : m.frame.payload = tag :: code :: args) : m.args = args := by simp [MgmtSlot.args, h]

theorem MgmtSlot.command_eq {m : MgmtSlot} {tag code : Byte} {args : List Byte}
    (h : m.frame.payload = tag :: code :: args) : m.command = Command.ofCode code := by
  simp [MgmtSlot.command, MgmtSlot.code_eq h, h]

/-! ### Tag records and responses (R141, R142) -/

/-- What a fresh tag record is: the managers of `managersAnswered`. -/
theorem State.recordTag_some (s : State) (m : MgmtSlot) (r : List Byte) :
    s.recordTag m (some r) = { s with managers := managersAnswered s.managers m m.tag r } := by
  by_cases h : m.tag = 0
  · simp [State.recordTag, managersAnswered, h]
  · simp only [State.recordTag, if_neg h, State.modManager, managersAnswered]
    congr 1
    apply List.map_congr_left
    intro e _
    by_cases h1 : e.port = m.port <;> by_cases h2 : e.addr = m.requester <;>
      simp [Manager.is, Manager.record, h1, h2]
    exact fun h' => absurd h' h

theorem State.response_slot (s : State) (m : MgmtSlot) (record : List Byte) (t : Trigger) :
    Slot.mgmt (s.response m record t) = responseSlot m (s.port m.port).inForce.own record t := rfl

/-- What an answer does: the response joins the request port's normal queue, and the managers take the record. -/
theorem State.answer_eq (s : State) (m : MgmtSlot) (st : Status) (result : List Byte) (t : Trigger) :
    s.answer m st result t =
      { s.modPort m.port fun x =>
          { x with
            normal := x.normal ++ [responseSlot m x.inForce.own (responseRecord m.tag m.code st result) t] } with
        managers := managersAnswered s.managers m m.tag (responseRecord m.tag m.code st result) } := by
  rw [State.answer, State.respond, State.recordTag_some]
  cases hp : m.port <;> simp [State.enqueue, State.modPort, State.response_slot, hp]

/-- An answer after an execution's own raise and pop is `answered`. -/
theorem State.answer_popped (s : State) (dt : Nat) (m : MgmtSlot) (st : Status) (result : List Byte) (t : Trigger) :
    ((s.elapse dt).raiseAgent .requestsTaken).popRequest.answer m st result t =
      s.answered dt m m.tag (responseRecord m.tag m.code st result) t := by
  rw [State.answer_eq]
  cases hp : m.port <;>
    simp [State.popRequest, State.answered, State.modPort, State.elapse, State.raiseAgent, raiseAll, hp]

/-! ### The steps of R139 -/

/-- A fresh request is no replay, whatever time has passed and whichever counters were raised. -/
theorem State.replayOf_none {s : State} {m : MgmtSlot} (h : s.Fresh m m.tag) (dt : Nat) (c : AgentCounter) :
    ((s.elapse dt).raiseAgent c).replayOf m = none := by
  unfold State.replayOf State.manager
  simp only [State.raiseAgent_managers, State.elapse_managers]
  change s.Fresh m m.tag at h
  unfold State.Fresh State.manager at h
  cases hm : s.managers.find? (·.is m.port m.requester) with
  | none => rfl
  | some e =>
    cases hl : e.last with
    | none => simp [hl]
    | some r =>
      obtain ⟨tag, record⟩ := r
      rcases h with h | h
      · simp [h, hl]
      · simp [hm, hl] at h
        simp [hl, h]

/-- An agent row whose command the request at the head names, and which is no replay, goes to steps 2 to 6. -/
theorem State.agentRow_fresh {s : State} {m : MgmtSlot} {c : Option Command} (six : StepSix) (dt : Nat)
    (hq : s.agentQueue.head? = some m) (hc : m.command = c) (hf : s.Fresh m m.tag) :
    (s.elapse dt).agentRow c six =
      match c with
      | none => s.answered dt m m.tag (responseRecord m.tag m.code m.malformed []) .none
      | some cmd => ((s.elapse dt).raiseAgent .requestsTaken).carryOut m cmd six := by
  obtain ⟨rest, hr⟩ : ∃ rest, s.agentQueue = m :: rest := by
    cases hs : s.agentQueue with
    | nil => simp [hs] at hq
    | cons a l => simp [hs] at hq; exact ⟨l, by rw [hq]⟩
  simp only [State.agentRow, State.elapse_agentQueue, hr, hc, if_true, State.executeRequest,
    State.replayOf_none hf]
  cases c with
  | none => rw [State.answer_popped]
  | some cmd => rfl

/-- Steps 4 and 5 pass for a manager with the right and arguments of the right length: step 6 is reached. -/
theorem State.carryOut_six {s : State} {m : MgmtSlot} {c : Command} (six : StepSix)
    (hr : s.rightRefusal c m = none) (hl : m.args.length = c.argBytes) :
    s.carryOut m c six =
      match six s m m.args with
      | (s1, some a) => s1.popRequest.answer m a.status a.result a.trigger
      | (s1, none) => s1.popRequest := by
  rw [State.carryOut, hr]
  exact if_neg (not_not_intro hl)

/-- R136: a WRITE manager is refused no command, and a manager no command that needs READ alone. -/
theorem State.rightRefusal_none {s : State} {m : MgmtSlot} {c : Command}
    (h : s.rightOf m = some .write ∨ (s.rightOf m ≠ none ∧ c.needsWrite = false)) : s.rightRefusal c m = none := by
  unfold State.rightRefusal
  unfold State.rightOf at h
  cases hm : s.manager m.port m.requester with
  | none => simp [hm] at h
  | some e => rcases h with h | h <;> simp_all

/-- R139: what a fresh request of a manager with the right does, by what its command does at step 6. -/
theorem State.agentRow_ready {s : State} {m : MgmtSlot} {tag code : Byte} {args : List Byte} {c : Command}
    (six : StepSix) (dt : Nat) (hh : s.Heads m tag code args) (hc : Command.ofCode code = some c)
    (hf : s.Fresh m tag) (hr : s.rightOf m = some .write ∨ (s.rightOf m ≠ none ∧ c.needsWrite = false))
    (hl : args.length = c.argBytes) :
    (s.elapse dt).agentRow (some c) six =
      match six ((s.elapse dt).raiseAgent .requestsTaken) m args with
      | (s1, some a) => s1.popRequest.answer m a.status a.result a.trigger
      | (s1, none) => s1.popRequest := by
  have ht := MgmtSlot.tag_eq hh.2
  have ha := MgmtSlot.args_eq hh.2
  rw [State.agentRow_fresh six dt hh.1 (by rw [MgmtSlot.command_eq hh.2, hc]) (by rw [ht]; exact hf)]
  have hr' : ((s.elapse dt).raiseAgent .requestsTaken).rightRefusal c m = none :=
    State.rightRefusal_none (s := (s.elapse dt).raiseAgent .requestsTaken) hr
  simp only [State.carryOut_six six hr' (by rw [ha]; exact hl), ha]

theorem responseRecord_refusal (tag code : Byte) (st : Status) :
    responseRecord tag code st [] = refusalRecord tag code st := by simp [responseRecord, refusalRecord]

/-- R149: a command refused at step 6 without a change of state only answers. -/
theorem State.agentRow_refused {s : State} {m : MgmtSlot} {tag code : Byte} {args : List Byte} {c : Command}
    {st : Status} {six : StepSix} {dt : Nat} (hh : s.Heads m tag code args) (hc : Command.ofCode code = some c)
    (hf : s.Fresh m tag) (hr : s.rightOf m = some .write ∨ (s.rightOf m ≠ none ∧ c.needsWrite = false))
    (hl : args.length = c.argBytes) (hsix : ∀ u : State, six u m args = (u, some (.refuse st))) :
    (s.elapse dt).agentRow (some c) six = s.answered dt m tag (refusalRecord tag code st) .none := by
  rw [State.agentRow_ready six dt hh hc hf hr hl, hsix]
  simp only [Answer.refuse, State.answer_popped, MgmtSlot.tag_eq hh.2, MgmtSlot.code_eq hh.2,
    responseRecord_refusal]

end Sys2Proof.Machine
end

