-- ==== Sys2Proof/Laws/Ops.lean ====
section
/-! SUPPORT. The operations the events share: for each, once, everything it can do. -/

namespace Sys2Proof.Machine

/-! ### Counters -/

theorem getElem_raiseAt {k : Nat} (v : Vector Count k) (i j : Fin k) (n : Nat) :
    (raiseAt v i n)[j] = if i = j then satAdd v[i] n else v[j] := by
  simp [raiseAt, Vector.getElem_set, Fin.ext_iff]

theorem le_satAdd (c : Count) (n : Nat) : c ≤ satAdd c n := by
  have h := c.isLt
  simp only [BitVec.le_def, satAdd, BitVec.toNat_ofNat, Config.countMax]
  omega

theorem satAdd_below {c : Count} {n : Nat} (h : c.toNat + n ≤ Config.countMax) :
    (satAdd c n).toNat = c.toNat + n := by
  simp only [Config.countMax] at h
  simp only [satAdd, BitVec.toNat_ofNat, Config.countMax]
  omega

/-- No counter of a group falls when one of them is raised. -/
theorem le_raiseAt {k : Nat} (v : Vector Count k) (i j : Fin k) (n : Nat) : v[j] ≤ (raiseAt v i n)[j] := by
  rw [getElem_raiseAt]
  split
  · rename_i h; subst h; exact le_satAdd _ _
  · simp

@[simp] theorem State.raiseRx_rx (s : State) (p : Port) (c : RxCounter) :
    ((s.raiseRx p c).port p).rx =
      { (s.port p).rx with counters := raiseAt (s.port p).rx.counters c.index 1 } := by simp [State.raiseRx]
@[simp] theorem State.raiseRx_tx (s : State) (p q : Port) (c : RxCounter) :
    ((s.raiseRx p c).port q).tx = (s.port q).tx := by simp [State.raiseRx]
@[simp] theorem State.raiseTx_tx (s : State) (p : Port) (c : TxCounter) :
    ((s.raiseTx p c).port p).tx =
      { (s.port p).tx with counters := raiseAt (s.port p).tx.counters c.index 1 } := by
  simp [State.raiseTx, State.raiseTxBy]
@[simp] theorem State.raiseTx_rx (s : State) (p q : Port) (c : TxCounter) :
    ((s.raiseTx p c).port q).rx = (s.port q).rx := by simp [State.raiseTx, State.raiseTxBy]

/-! ### The line -/

@[simp] theorem State.elapse_bitTime (s : State) (dt : Nat) (p : Port) : (s.elapse dt).bitTime p = s.bitTime p := by
  simp [State.bitTime]

@[simp] theorem State.elapse_driverEnable (s : State) (dt : Nat) (p : Port) :
    (s.elapse dt).driverEnable p = s.driverEnable p := by simp [State.driverEnable]

@[simp] theorem State.elapse_now (s : State) (dt : Nat) : (s.elapse dt).now = (s.clock + dt) / 1000 := rfl

/-- A port has begun to send exactly while its driver is on. -/
theorem State.driveStart_isSome (s : State) (p : Port) : (s.driveStart p).isSome = s.driverEnable p := by
  unfold State.driveStart State.driverEnable
  cases (s.port p).tx.state <;> cases (s.port p).rx.state <;> rfl

@[simp] theorem State.elapse_driveStart (s : State) (dt : Nat) (p : Port) :
    (s.elapse dt).driveStart p = s.driveStart p := by simp [State.driveStart]

@[simp] theorem State.elapse_driven (s : State) (dt : Nat) (p : Port) : (s.elapse dt).driven p = s.driven p := by
  simp [State.driven]

theorem State.driveStart_none {s : State} {p : Port} : s.driveStart p = none ↔ s.driverEnable p = false := by
  rw [← State.driveStart_isSome]; simp

@[simp] theorem State.elapse_byteEnd (s : State) (dt : Nat) (p : Port) (start k : Nat) :
    (s.elapse dt).byteEnd p start k = s.byteEnd p start k := by simp [State.byteEnd]

@[simp] theorem State.elapse_driveEnd (s : State) (dt : Nat) (p : Port) (start : Nat) :
    (s.elapse dt).driveEnd p start = s.driveEnd p start := by simp [State.driveEnd]

@[simp] theorem State.elapse_lineEnd (s : State) (dt : Nat) (p : Port) : (s.elapse dt).lineEnd p = s.lineEnd p := by
  simp [State.lineEnd]

/-- While the port does not drive, the last activity on its line is another station's. -/
theorem State.lineEnd_off {s : State} {p : Port} (h : s.driverEnable p = false) :
    s.lineEnd p = (s.port p).idleSince := by simp [State.lineEnd, State.driveStart_none.2 h]

/-- While the port drives, its line is active up to the end of its drive at least. -/
theorem State.lineEnd_on {s : State} {p : Port} {start : Nat} (h : s.driveStart p = some start) :
    s.lineEnd p = max (s.port p).idleSince (s.driveEnd p start) := by simp [State.lineEnd, h]

theorem State.idleSince_le_lineEnd (s : State) (p : Port) : (s.port p).idleSince ≤ s.lineEnd p := by
  unfold State.lineEnd
  cases s.driveStart p <;> simp

/-- Idle time has reached `bits` bit times once `dt` has passed. -/
theorem State.elapse_idleReached (s : State) (dt bits : Nat) (p : Port) :
    (s.elapse dt).idleReached p bits = true ↔ bits * s.bitTime p ≤ s.clock + dt - s.lineEnd p := by
  simp [State.idleReached, State.idleTime]

/-- R80: a byte is 10 bit times on the line. -/
@[simp] theorem length_byteBits (v : Byte) : (byteBits v).length = Config.bitsPerByte := rfl

@[simp] theorem length_lineBits (bytes : List Byte) : (lineBits bytes).length = bytes.length * Config.bitsPerByte := by
  induction bytes with
  | nil => rfl
  | cons v rest ih =>
    rw [lineBits, List.flatMap_cons, List.length_append, length_byteBits, List.length_cons, ← lineBits, ih,
      Nat.succ_mul, Nat.add_comm]

/-- R80: bit `n` of a run of bytes: bit `n % 10` of byte `n / 10`, of which bit 0 is its start bit and bit 9 its
stop bit. -/
theorem getElem?_lineBits (bytes : List Byte) (n : Nat) (v : Byte) (h : bytes[n / 10]? = some v) :
    (lineBits bytes)[n]? = some
      (if n % 10 = 0 then .start else if n % 10 = 9 then .stop else .data (v.getLsbD (n % 10 - 1))) := by
  induction bytes generalizing n with
  | nil => simp at h
  | cons a rest ih =>
    rw [lineBits, List.flatMap_cons, ← lineBits]
    by_cases hn : n < 10
    · rw [Nat.div_eq_of_lt hn] at h
      obtain rfl : a = v := by simpa using h
      rw [List.getElem?_append_left (by simpa [Config.bitsPerByte] using hn), Nat.mod_eq_of_lt hn]
      rcases n with _ | _ | _ | _ | _ | _ | _ | _ | _ | _ | n <;> first | rfl | omega
    · rw [show n / 10 = (n - 10) / 10 + 1 by omega] at h
      rw [List.getElem?_append_right (by simp [Config.bitsPerByte]; omega),
        show n % 10 = (n - 10) % 10 by omega]
      exact ih (n - 10) (by simpa using h)

/-! ### Admission (R64, R65) -/

theorem State.freeCount_pos (s : State) : s.freeCount ≠ 0 ↔ s.dataCount + s.mgmtCount < 32 := by
  simp only [State.freeCount, Config.slotCount]; omega

theorem State.admitsData_iff (s : State) (e : Port) :
    s.admitsData e = true ↔
      s.dataCount + s.mgmtCount < 32 ∧ s.dataCount < 30 ∧ s.dataAt e < (s.port e).inForce.queueLimit := by
  simp only [State.admitsData, Bool.and_eq_true, and_assoc, decide_eq_true_eq]
  simp only [Config.dataCap, State.freeCount, Config.slotCount]
  omega

theorem State.admitsRequest_iff (s : State) :
    s.admitsRequest = true ↔
      s.dataCount + s.mgmtCount < 32 ∧ s.mgmtCount < 6 ∧ s.agentQueue.length < 4 ∧ s.restartPending = 0 := by
  simp only [State.admitsRequest, Bool.and_eq_true, and_assoc, decide_eq_true_eq]
  simp only [Config.mgmtCap, Config.agentQueueCap, State.freeCount, Config.slotCount]
  omega

/-! ### The end of a fence (R52, R53, R73) -/

/-- What the end of a fence does: the holder slot becomes the COMMIT's response on the normal queue of its
request port, and no fence is pending. -/
theorem State.endFence_eq (s : State) (f : Fence) (st : Status) (n : Nat) :
    s.endFence f st n =
      { s.modPort f.holder.port fun x =>
          { x with
            normal := x.normal ++ [responseSlot f.holder x.inForce.own
              (responseRecord f.holder.tag f.holder.code st (s.commitResult n)) .none] } with
        fence := none
        managers := managersAnswered s.managers f.holder f.holder.tag
          (responseRecord f.holder.tag f.holder.code st (s.commitResult n)) } := by
  rw [State.endFence, State.answer_eq]
  cases hp : f.holder.port <;> simp [State.modPort]

/-- What the report of a freeing does: nothing, unless a fence is pending, the slot was old and none is left. -/
theorem State.reportFreed_cases (s : State) (wasOld : Bool) :
    s.reportFreed wasOld = s ∨
      ∃ f, s.fence = some f ∧ wasOld = true ∧ s.oldCount = 0 ∧ s.reportFreed wasOld = s.endFence f .ok 0 := by
  unfold State.reportFreed
  split
  · exact .inl rfl
  · rename_i f hf
    split
    · rename_i h; exact .inr ⟨f, hf, h.1, h.2, rfl⟩
    · exact .inl rfl

theorem State.reportFreed_noFence {s : State} (h : s.fence = none) (wasOld : Bool) : s.reportFreed wasOld = s := by
  simp [State.reportFreed, h]

/-! ### The transmit position (R70 to R72, R125) -/

/-- What the freeing of the slot in a transmit position does, by what the position holds. -/
theorem State.endFreed_data {s : State} {p : Port} {d : DataSlot} (h : (s.port p).tx.pos = some (.data d)) :
    s.endFreed p = (s.vacate p).reportFreed (decide (d.epoch ≠ s.commitCount)) := by simp [State.endFreed, h]

theorem State.endFreed_mgmt {s : State} {p : Port} {m : MgmtSlot} (h : (s.port p).tx.pos = some (.mgmt m)) :
    s.endFreed p = (s.vacate p).runTrigger m.trigger := by simp [State.endFreed, h]

theorem State.endFreed_none {s : State} {p : Port} (h : (s.port p).tx.pos = none) : s.endFreed p = s.vacate p := by
  simp [State.endFreed, h]

/-- What a failure does: the slot becomes a notice at the tail of its ingress port's normal queue, or the notice
is dropped, or the slot is freed as any other. -/
theorem State.endFailed_cases (s : State) (p : Port) (r : Failure) :
    (∃ d, (s.port p).tx.pos = some (.data d) ∧ d.makesNotice = true ∧
        (s.vacate p).dataAt d.ingress < (s.port d.ingress).inForce.queueLimit ∧
        s.endFailed p r = ((s.vacate p).enqueue d.ingress .normal
          (.data (s.notice d r (s.port p).tx.attempts))).raiseTx p .noticesMade) ∨
      (∃ d, (s.port p).tx.pos = some (.data d) ∧ d.makesNotice = true ∧
        (s.port d.ingress).inForce.queueLimit ≤ (s.vacate p).dataAt d.ingress ∧
        s.endFailed p r =
          ((s.vacate p).raiseTx p .noticesDropped).reportFreed (decide (d.epoch ≠ s.commitCount))) ∨
      ((∀ d, (s.port p).tx.pos = some (.data d) → d.makesNotice = false) ∧ s.endFailed p r = s.endFreed p) := by
  unfold State.endFailed
  split
  · rename_i d hd
    by_cases hm : d.makesNotice = true
    · by_cases hq : (s.vacate p).dataAt d.ingress < (s.port d.ingress).inForce.queueLimit
      · exact .inl ⟨d, hd, hm, hq, by simp [hm, hq]⟩
      · exact .inr (.inl ⟨d, hd, hm, by omega, by simp [hm, hq]⟩)
    · refine .inr (.inr ⟨fun e he => ?_, by simp [hm]⟩)
      rw [hd] at he
      cases he
      simpa using hm
  · rename_i h
    refine .inr (.inr ⟨fun e he => ?_, rfl⟩)
    exact absurd he (h e)

/-- What a restart trigger does. -/
theorem State.runTrigger_cases (s : State) (t : Trigger) :
    (t = .none ∧ s.runTrigger t = s) ∨
      (t = .restart ∧ s.runTrigger t = { s with restartPending := s.restartPending - 1 }.softRestart) ∨
      ∃ p, t = .restartPort p ∧
        s.runTrigger t = { s with restartPending := s.restartPending - 1 }.portRestart p := by
  cases t with
  | none => exact .inl ⟨rfl, rfl⟩
  | restart => exact .inr (.inl ⟨rfl, rfl⟩)
  | restartPort p => exact .inr (.inr ⟨p, rfl, rfl⟩)

/-- A port restart while no fence is pending only flushes, resets and counts. -/
theorem State.portRestart_noFence {s : State} (h : s.fence = none) (p : Port) :
    s.portRestart p =
      { ((s.raiseFlushed p).modPort p (PortState.restarted (s.cutOff p))).raiseAgent .portRestarts with
        agentQueue := s.agentQueue.filter fun m => m.port != p
        managers := clearPending (· == p) s.managers
        restartPending := s.restartPending - (s.port p).slots.countP Slot.hasTrigger } := by
  unfold State.portRestart
  rw [State.reportFreed_noFence]
  cases p <;> simpa [State.raiseFlushed, State.raiseTxBy] using h

/-! ### Deferral and backoff (R116 to R120) -/

/-- A path that has entered DEFER does not drive, so the idle time of its line is that of the other stations. -/
theorem State.deferred_idleReached {s : State} {p : Port} (h : (s.port p).rx.state = .idle)
    (gap start limit bits : Nat) :
    (s.modTx p fun x => { x with state := .defer gap start limit }).idleReached p bits = true ↔
      bits * s.bitTime p ≤ s.clock - (s.port p).idleSince := by
  have hd : (s.modTx p fun x => { x with state := .defer gap start limit }).driverEnable p = false := by
    cases p <;> simp_all [State.driverEnable, State.modTx, State.modPort, State.port, TxState.isSending,
      RxState.isReplying]
  rw [State.idleReached, decide_eq_true_eq, State.idleTime, State.lineEnd_off hd]
  cases p <;> simp [State.modTx, State.modPort, State.bitTime, State.port]

/-- What entering DEFER does: the path defers, or the send begins in the same event. -/
theorem State.enterDefer_cases (s : State) (p : Port) :
    (s.gapOf p * s.bitTime p ≤ s.clock - (s.port p).idleSince ∧ (s.port p).rx.state = .idle ∧
        s.enterDefer p = s.modPort p fun x =>
          { x with clash := none, tx := { x.tx with state := .sending (s.port p).params.window s.clock } }) ∨
      (¬(s.gapOf p * s.bitTime p ≤ s.clock - (s.port p).idleSince ∧ (s.port p).rx.state = .idle) ∧
        s.enterDefer p =
          s.modTx p fun x => { x with state := .defer (s.gapOf p) s.now (s.port p).params.deferLimit }) := by
  unfold State.enterDefer
  by_cases h : s.gapOf p * s.bitTime p ≤ s.clock - (s.port p).idleSince ∧ (s.port p).rx.state = .idle
  · refine .inl ⟨h.1, h.2, ?_⟩
    rw [if_pos ⟨(State.deferred_idleReached h.2 _ _ _ _).2 h.1, h.2⟩]
    cases p <;> simp [State.startSend, State.modTx, State.modPort]
  · refine .inr ⟨h, ?_⟩
    rw [if_neg (fun h' => h ⟨(State.deferred_idleReached h'.2 _ _ _ _).1 h'.1, h'.2⟩)]

/-- What entering BACKOFF does: a wait of 0 defers at once, any other runs. -/
theorem State.enterBackoff_cases (s : State) (p : Port) (began : Nat) :
    let wait := (s.port p).backoffBits (s.port p).tx.attempts
    (wait = 0 ∧ s.enterBackoff p began = s.enterDefer p) ∨
      (0 < wait ∧
        s.enterBackoff p began = s.modTx p fun x => { x with state := .backoff (began + wait * s.bitTime p) }) := by
  intro wait
  unfold State.enterBackoff
  by_cases h : wait = 0
  · exact .inl ⟨h, if_pos h⟩
  · exact .inr ⟨by omega, if_neg h⟩

/-- What the retry check does: the frame fails when no attempt is left, and backs off otherwise. -/
theorem State.retryCheck_cases (s : State) (p : Port) (failed : Nat) :
    ((s.port p).params.retryLimit + 1 ≤ (s.port p).tx.attempts ∧
        s.retryCheck p failed = (s.raiseTx p .retryExhausted).endFailed p .retryExhausted) ∨
      ((s.port p).tx.attempts < (s.port p).params.retryLimit + 1 ∧
        s.retryCheck p failed = s.enterBackoff p failed) := by
  unfold State.retryCheck
  split
  · rename_i h; exact .inl ⟨h, rfl⟩
  · rename_i h; exact .inr ⟨by omega, rfl⟩

end Sys2Proof.Machine
end

