-- ==== Sys2Proof/Laws/Walk.lean ====
section
/-! SUPPORT. The walk and its conclusion: the steps of the walk, the rewrites, the meter test. -/

namespace Sys2Proof.Machine

/-! ### The steps of a walk (R10 to R13) -/

theorem Bank.walkFrom_skip {b : Bank} {p : Port} {f : Frame} {i : Fin 128} (h : b.entries[i].matches p f = false)
    (rest path : List (Fin 128)) : b.walkFrom p f (i :: rest) path = b.walkFrom p f rest path := by
  conv => lhs; unfold Bank.walkFrom
  simp only [h]
  rfl

theorem Bank.walkFrom_overrun {b : Bank} {p : Port} {f : Frame} {i : Fin 128}
    (h : b.entries[i].matches p f = true) {path : List (Fin 128)} (hp : 4 ≤ path.length) (rest : List (Fin 128)) :
    b.walkFrom p f (i :: rest) path = .overrun := by
  unfold Bank.walkFrom
  simp only [h, if_true, if_pos (show Config.pathCap ≤ path.length from hp)]

theorem Bank.walkFrom_stop {b : Bank} {p : Port} {f : Frame} {i : Fin 128} (h : b.entries[i].matches p f = true)
    (hc : b.entries[i].chain = .stop) {path : List (Fin 128)} (hp : path.length < 4) (rest : List (Fin 128)) :
    b.walkFrom p f (i :: rest) path = .decided (path ++ [i]) b.entries[i].profile := by
  unfold Bank.walkFrom
  have hp' : ¬Config.pathCap ≤ path.length := by simpa [Config.pathCap] using hp
  simp only [h, if_true, if_neg hp', hc]

theorem Bank.walkFrom_continue {b : Bank} {p : Port} {f : Frame} {i : Fin 128}
    (h : b.entries[i].matches p f = true) (hc : b.entries[i].chain = .continue) {path : List (Fin 128)}
    (hp : path.length < 4) (rest : List (Fin 128)) :
    b.walkFrom p f (i :: rest) path = b.walkFrom p f rest (path ++ [i]) := by
  conv => lhs; unfold Bank.walkFrom
  have hp' : ¬Config.pathCap ≤ path.length := by simpa [Config.pathCap] using hp
  simp only [h, if_true, if_neg hp', hc]

/-! ### Rewrites (R17): the last one present on the path wins -/

theorem Bank.newDst_eq (b : Bank) (path : List (Fin 128)) (f : Frame) :
    b.newDst path f = (path.reverse.findSome? fun k => b.entries[k].dstRewrite).getD f.dst := by
  unfold Bank.newDst
  rw [← List.foldr_reverse]
  induction path.reverse with
  | nil => rfl
  | cons a l ih =>
    simp only [List.foldr_cons, List.findSome?_cons, ih]
    cases b.entries[a].dstRewrite <;> simp

theorem Bank.newSrc_eq (b : Bank) (path : List (Fin 128)) (f : Frame) :
    b.newSrc path f =
      match (path.reverse.map fun k => b.entries[k].srcRewrite).find?
          (fun r => decide (r ≠ SrcRewrite.absent)) with
      | some (.fixed v) => v
      | some (.offset k) => BitVec.ofNat 8 ((f.src.toNat + k.toNat) % 255)
      | _ => f.src := by
  unfold Bank.newSrc
  rw [← List.foldr_reverse]
  induction path.reverse with
  | nil => rfl
  | cons a l ih =>
    simp only [List.foldr_cons, List.map_cons, List.find?_cons, ih]
    cases b.entries[a].srcRewrite <;> simp [SrcRewrite.apply]

/-! ### Meters (R20) -/

theorem Bank.namesMeter_iff (b : Bank) (path : List (Fin 128)) (m : Fin 16) :
    b.namesMeter path m = true ↔ ∃ k ∈ path, b.entries[k].meter = some m := by simp [Bank.namesMeter]

theorem State.conforms_iff (s : State) (path : List (Fin 128)) (f : Frame) :
    s.conforms path f = true ↔
      ∀ k ∈ path, ∀ m, s.activeBank.entries[k].meter = some m → 7 + f.payload.length ≤ s.meters[m].tokens := by
  simp only [State.conforms, List.all_eq_true, List.mem_finRange, true_implies, Bool.or_eq_true,
    Bool.not_eq_true', decide_eq_true_eq]
  constructor
  · intro h k hk m hm
    rcases h m with h | h
    · have := (Bank.namesMeter_iff s.activeBank path m).2 ⟨k, hk, hm⟩
      simp [h] at this
    · simpa [Frame.charge, Frame.lineLength, Config.frameOverhead] using h
  · intro h m
    by_cases hn : s.activeBank.namesMeter path m = true
    · obtain ⟨k, hk, hm⟩ := (Bank.namesMeter_iff _ _ _).1 hn
      right
      have := h k hk m hm
      simpa [Frame.charge, Frame.lineLength, Config.frameOverhead] using this
    · exact .inl (by simpa using hn)

/-! ### The conclusion (R15 to R22) -/

/-- What the presentation for admission does. -/
theorem State.present_cases (s : State) (p : Port) (f : Frame) (path : List (Fin 128)) (q : Profile)
    (choice : QueueChoice) (charged : Bool) :
    (s.admitsData (q.egress.port p) = true ∧
        s.present p f path q choice charged = s.take p f path q choice charged) ∨
      (s.admitsData (q.egress.port p) = false ∧
        s.present p f path q choice charged =
          if f.isBroadcast then (s.raiseRx p .broadcastNoRoom).endSilent p else s.owe p f .busy) := by
  unfold State.present
  cases s.admitsData (q.egress.port p) <;> simp

/-- What the conclusion of a decided FORWARD does. -/
theorem State.forward_cases (s : State) (p : Port) (f : Frame) (path : List (Fin 128)) (q : Profile) :
    s.forward p f path q = (s.raiseRx p .duplicate).owe p f .ack ∨
      s.forward p f path q = (s.raiseRx p .rewriteFault).oweUnicast p f .refuse ∨
      s.forward p f path q = s.present p f path q (q.queue.resolve f.urgent) true ∨
      s.forward p f path q = (s.raiseRx p .overBudget).endSilent p ∨
      s.forward p f path q = (s.raiseRx p .overBudget).oweUnicast p f .refuse ∨
      s.forward p f path q = (s.raiseRx p .overBudget).oweUnicast p f .busy ∨
      s.forward p f path q = (s.raiseRx p .overBudget).present p f path q .normal false := by
  unfold State.forward
  split
  · exact .inl rfl
  · split
    · exact .inr (.inl rfl)
    · unfold State.police
      split
      · exact .inr (.inr (.inl rfl))
      · cases q.policy <;> simp

/-- What a walk's end does, beyond a decided FORWARD. -/
theorem State.runWalk_cases (s : State) (p : Port) (f : Frame) :
    s.runWalk p f = (s.raiseRx p .chainOverrun).endSilent p ∨ s.runWalk p f = (s.raiseRx p .notTaken).endSilent p ∨
      s.runWalk p f = (s.raiseRx p .notTaken).oweUnicast p f .refuse ∨
      ∃ path i, s.activeBank.walk p f = .decided path i ∧ s.activeBank.profiles[i].disposition = .forward ∧
        s.runWalk p f = s.forward p f path s.activeBank.profiles[i] := by
  unfold State.runWalk
  cases hw : s.activeBank.walk p f with
  | overrun => exact .inl rfl
  | unmatched => exact .inr (.inl rfl)
  | decided path i =>
    simp only [State.conclude]
    cases hd : s.activeBank.profiles[i].disposition with
    | drop => exact .inr (.inl rfl)
    | dropRefuse => exact .inr (.inr (.inl rfl))
    | forward => exact .inr (.inr (.inr ⟨path, i, rfl, hd, rfl⟩))

end Sys2Proof.Machine
end

