-- ==== Sys2Proof/Laws/Receive.lean ====
section
/-! SUPPORT. The receive path: what a frame end is, for each of the ways it can go. -/

namespace Sys2Proof.Machine

/-! ### What is read while the port drives (R81, R86) -/

/-- What the comparison does: nothing once the driver is off or when the port reads what it sends, and else the
activity counts for idle time, and the first marks the byte being sent. -/
theorem State.readBack_cases (s : State) (p : Port) (start : Nat) (act : Activity) :
    ((s.driveEnd p start ≤ s.clock ∨ s.readsItself p start act = true) ∧ s.readBack p start act = s) ∨
      (s.clock < s.driveEnd p start ∧ s.readsItself p start act = false ∧
        s.readBack p start act = s.modPort p fun x =>
          { x with
            clash := some (x.clash.getD (s.byteNow p start))
            idleSince := max x.idleSince (s.clock + activityBits act * s.bitTime p) }) := by
  unfold State.readBack
  by_cases h : s.driveEnd p start ≤ s.clock ∨ s.readsItself p start act = true
  · exact .inl ⟨h, if_pos h⟩
  · rw [if_neg h]
    refine .inr ⟨by omega, by simpa using fun e => h (.inr e), ?_⟩
    cases p <;> simp [State.activity, State.modPort, State.bitTime, State.port]

/-! ### The frame end (R96 to R99) -/

@[simp] theorem State.elapse_screened (s : State) (dt : Nat) (p : Port) : (s.elapse dt).screened p = s.screened p := by
  simp [State.screened]

theorem State.settleMark_of_notAwaiting {s : State} {p : Port} (h : (s.port p).tx.state.isAwaiting = false) :
    s.settleMark p = s := by simp [State.settleMark, h]

theorem State.settleMark_of_unmarked {s : State} {p : Port} (h : s.markedAt p = false) : s.settleMark p = s := by
  simp [State.settleMark, h]

/-- A frame end whose condition holds judges what has been assembled. -/
theorem exec_frameEnd {s : State} {dt : Nat} {p : Port} (h : s.Ends dt p) :
    exec (.frameEnd dt p) s = .next (((s.elapse dt).settleMark p).judgeFrame p (s.screened p)) := by
  simp only [exec, execFrameEnd, State.frameEnds]
  rw [if_pos ⟨by simpa using h.1, (State.elapse_idleReached s dt Config.frameEndGap p).2 h.2⟩,
    State.elapse_screened]

/-- What the judgement of a frame does: it settles a pending reply wait as a reply, or as NO-REPLY before the
frame is handled, or only handles the frame. -/
theorem State.judgeFrame_cases (s : State) (p : Port) (v : Screened) :
    (∃ r, s.decidesWait p = true ∧ s.awaited p v = some r ∧
        s.judgeFrame p v = ((s.raiseRx p .rxGood).endSilent p).settle p r) ∨
      (s.decidesWait p = true ∧ s.awaited p v = none ∧ s.judgeFrame p v = (s.endNoReply p).handleFrame p v) ∨
      (s.decidesWait p = false ∧ s.judgeFrame p v = s.handleFrame p v) := by
  unfold State.judgeFrame
  cases hd : s.decidesWait p
  · simp
  · cases ha : s.awaited p v
    · simp
    · simp

/-- A good frame at a port that awaits no reply is counted and routed. -/
theorem exec_frameEnd_good {s : State} {dt : Nat} {p : Port} {f : Frame} (h : s.EndsGood dt p f) :
    exec (.frameEnd dt p) s = .next (((s.elapse dt).raiseRx p .rxGood).route p f) := by
  obtain ⟨h1, h2, h3⟩ := h
  rw [exec_frameEnd h1, h2, State.settleMark_of_notAwaiting (by simpa using h3)]
  simp [State.judgeFrame, State.decidesWait, h3, State.handleFrame, h1.1]

/-- A frame that is walked. -/
theorem exec_frameEnd_walked {s : State} {dt : Nat} {p : Port} {f : Frame} (h : s.EndsWalked dt p f) :
    exec (.frameEnd dt p) s = .next (((s.elapse dt).raiseRx p .rxGood).runWalk p f) := by
  obtain ⟨h1, h2, h3⟩ := h
  rw [exec_frameEnd_good h1]
  simp [State.route, h2, State.raiseRx, State.modRx, h3]

/-! ### The ends that raise counters and decide a reply, as `frameDone` -/

theorem State.endSilent_frameDone (s : State) (dt : Nat) (p : Port) (c : RxCounter) :
    (((s.elapse dt).raiseRx p .rxGood).raiseRx p c).endSilent p = s.frameDone dt p [.rxGood, c] .idle := by
  cases p <;> simp [State.endSilent, State.raiseRx, State.modRx, State.modPort, State.frameDone, raiseAll]

theorem State.owe_frameDone (s : State) (dt : Nat) (p : Port) (c : RxCounter) (f : Frame) (t : ReplyType) :
    (((s.elapse dt).raiseRx p .rxGood).raiseRx p c).owe p f t =
      s.frameDone dt p [.rxGood, c] (.oweReply ⟨t, f.src, f.dst, f.seq⟩) := by
  cases p <;> simp [State.owe, State.raiseRx, State.modRx, State.modPort, State.frameDone, raiseAll]

theorem State.owe_frameDone_good (s : State) (dt : Nat) (p : Port) (f : Frame) (t : ReplyType) :
    ((s.elapse dt).raiseRx p .rxGood).owe p f t =
      s.frameDone dt p [.rxGood] (.oweReply ⟨t, f.src, f.dst, f.seq⟩) := by
  cases p <;> simp [State.owe, State.raiseRx, State.modRx, State.modPort, State.frameDone, raiseAll]

theorem State.oweUnicast_frameDone (s : State) (dt : Nat) (p : Port) (c : RxCounter) (f : Frame) (t : ReplyType) :
    (((s.elapse dt).raiseRx p .rxGood).raiseRx p c).oweUnicast p f t =
      s.frameDone dt p [.rxGood, c] (replyState f t) := by
  by_cases h : f.dst = 255#8
  · simp [State.oweUnicast, Frame.isBroadcast, h, State.endSilent_frameDone, replyState]
  · simp [State.oweUnicast, Frame.isBroadcast, h, State.owe_frameDone, replyState]

/-! ### What a frame end is judged against, after its own raise of rx-good -/

@[simp] theorem State.raiseRx_activeBank (s : State) (p : Port) (c : RxCounter) :
    (s.raiseRx p c).activeBank = s.activeBank := by
  cases p <;> rfl
@[simp] theorem State.raiseRx_inForce (s : State) (p q : Port) (c : RxCounter) :
    ((s.raiseRx p c).port q).inForce = (s.port q).inForce := by cases p <;> cases q <;> rfl
@[simp] theorem State.raiseRx_isDuplicate (s : State) (p : Port) (c : RxCounter) (f : Frame) :
    (s.raiseRx p c).isDuplicate p f = s.isDuplicate p f := by cases p <;> rfl
@[simp] theorem State.raiseRx_conforms (s : State) (p : Port) (c : RxCounter) (path : List (Fin 128)) (f : Frame) :
    (s.raiseRx p c).conforms path f = s.conforms path f := by
  unfold State.conforms
  rw [State.raiseRx_activeBank]
  cases p <;> rfl
@[simp] theorem State.raiseRx_admitsData (s : State) (p e : Port) (c : RxCounter) :
    (s.raiseRx p c).admitsData e = s.admitsData e := by cases p <;> cases e <;> rfl
@[simp] theorem State.raiseRx_admitsRequest (s : State) (p : Port) (c : RxCounter) :
    (s.raiseRx p c).admitsRequest = s.admitsRequest := by cases p <;> rfl

/-- What the intake does, in the order of its steps. -/
theorem State.intake_cases (s : State) (p : Port) (f : Frame) :
    s.intake p f = (s.raiseRx p .duplicate).owe p f .ack ∨
      s.intake p f = (s.raiseAgent .duplicatePending).owe p f .ack ∨
      (s.admitsRequest = true ∧ s.intake p f = s.takeRequest p f) ∨
      s.intake p f = (s.raiseAgent .agentBusy).owe p f .busy := by
  unfold State.intake
  split
  · exact .inl rfl
  · split
    · exact .inr (.inl rfl)
    · split
      · rename_i h; exact .inr (.inr (.inl ⟨h, rfl⟩))
      · exact .inr (.inr (.inr rfl))

/-! ### The kind byte -/

/-- The kind byte names its type, urgent bit and sequence. -/
theorem kindByte_fields (t : FrameType) (u : Bool) (q : BitVec 4) :
    FrameType.ofCode (bitsOf (kindByte t u q) 5 3) = some t ∧ (bitsOf (kindByte t u q) 4 1 == 1) = u ∧
      BitVec.ofNat 4 (kindByte t u q).toNat = q := by
  cases t <;> cases u <;> revert q <;> decide

end Sys2Proof.Machine
end

