-- ==== Sys2Proof/Laws/Transmit.lean ====
section
/-! SUPPORT. The transmit path: what each of its events is once its condition holds. -/

namespace Sys2Proof.Machine

@[simp] theorem Slot.withSeq_urgent (h : Slot) (q : BitVec 4) : (h.withSeq q).frame.urgent = h.frame.urgent := by
  cases h <;> rfl

/-- R113: what the selection does: nothing, the aging of the head, or its way into DEFER. -/
theorem State.select_cases (s : State) (p : Port) :
    s.select p = s ∨
      ∃ h x, (s.port p).head = some (h, x) ∧ (s.port p).tx.state = .idle ∧
        ((s.isAged p h = true ∧ s.select p = ((s.takeUp p h x).raiseTx p .aged).endFailed p .aged) ∨
          (s.isAged p h = false ∧
            s.select p = ((s.takeUp p h x).modTx p fun y => y.assignSeq h).enterDefer p)) := by
  unfold State.select
  by_cases hc : (s.port p).tx.state = .idle ∧ (s.port p).rx.state.owesReply = false
  · rw [if_pos hc]
    cases hh : (s.port p).head with
    | none => exact .inl rfl
    | some hx =>
      obtain ⟨h, x⟩ := hx
      refine .inr ⟨h, x, rfl, hc.1, ?_⟩
      cases ha : s.isAged p h
      · exact .inr ⟨rfl, by simp [ha]⟩
      · exact .inl ⟨rfl, by simp [ha]⟩
  · exact .inl (by rw [if_neg hc])

/-! ### The end of a frame (R70 to R73, R125) -/

/-- R73: the report of a freed slot is the statements' `slotFreed`. -/
theorem State.reportFreed_eq (s : State) (d : DataSlot) :
    s.reportFreed (decide (d.epoch ≠ s.commitCount)) = s.slotFreed (.data d) := by
  unfold State.reportFreed State.slotFreed
  cases s.fence with
  | none => rfl
  | some f =>
    by_cases h : d.epoch ≠ s.commitCount ∧ s.oldCount = 0
    · simp only [decide_eq_true_eq, if_pos h]
      simp only [State.endFence, State.answer, State.respond, State.recordTag, State.enqueue, State.response,
        State.commitResult, managersAnswered, responseSlot, okRecord, responseRecord, Status.code]
      by_cases ht : f.holder.tag = 0#8
      · cases f.holder.port <;> simp [ht, State.modPort]
      · cases f.holder.port <;>
          simp [ht, State.modPort, State.modManager, Manager.record, Manager.is]
    · simp only [decide_eq_true_eq, if_neg h]

/-- R72: the freeing of a slot without a restart trigger. -/
theorem State.endFreed_eq {s : State} {p : Port} {x : Slot} (h1 : (s.port p).tx.pos = some x)
    (h2 : x.hasTrigger = false) : s.endFreed p = (s.vacate p).slotFreed x := by
  unfold State.endFreed
  rw [h1]
  cases x with
  | data d =>
    have h3 : (s.vacate p).commitCount = s.commitCount := by simp [State.vacate]
    simp only [← h3, State.reportFreed_eq]
  | mgmt m =>
    have h3 : m.trigger = .none := by simpa [Slot.hasTrigger] using h2
    simp only [h3, State.runTrigger, State.slotFreed]
    cases (s.vacate p).fence <;> rfl

/-- R125: what vacating the position leaves, once the counters `cs` are raised. -/
theorem State.endFreed_ended {s u : State} {p : Port} {x : Slot} {cs : List TxCounter}
    (h1 : (s.port p).tx.pos = some x) (h2 : x.hasTrigger = false)
    (h3 : s.vacate p = u.modPort p fun y => { y with tx := y.tx.ended cs }) :
    s.endFreed p = u.ended p x cs := by
  rw [State.endFreed_eq h1 h2, h3]; rfl

theorem Failure.noticed_iff (d : DataSlot) : d.makesNotice = true ↔ d.Noticed := by
  simp [DataSlot.makesNotice, and_assoc]

/-- R70, R71: a failure, once the counters `cs` are raised and the attempt count is `a`. -/
theorem State.endFailed_failed {s u : State} {p : Port} {x : Slot} {a : Nat} {cs : List TxCounter} (r : Failure)
    (h1 : (s.port p).tx.pos = some x) (h2 : x.hasTrigger = false) (h4 : (s.port p).tx.attempts = a)
    (h3 : s.vacate p = u.modPort p fun y => { y with tx := y.tx.ended cs }) :
    s.endFailed p r = u.failed p x r.code a cs := by
  unfold State.endFailed State.failed
  rw [h1]
  cases x with
  | mgmt m => exact State.endFreed_ended h1 h2 h3
  | data d =>
    by_cases hn : d.Noticed
    · have hc : s.commitCount = (u.modPort p fun y => { y with tx := y.tx.ended cs }).commitCount := by
        rw [← h3]; simp [State.vacate]
      have hnow : s.now = u.now := by
        have e : (s.vacate p).now = s.now := by cases p <;> rfl
        rw [← e, h3]; cases p <;> rfl
      have hown : (s.port d.ingress).inForce = (u.port d.ingress).inForce := by
        have e : ((s.vacate p).port d.ingress).inForce = (s.port d.ingress).inForce := by
          cases p <;> cases d.ingress <;> rfl
        rw [← e, h3]; cases p <;> cases d.ingress <;> rfl
      have hnote : Slot.data (s.notice d r a) = u.noticeOf d r.code a := by
        unfold State.notice State.noticeOf
        rw [hnow, hown]; rfl
      simp only [(Failure.noticed_iff d).2 hn, if_true, if_pos hn, h4, hnote, h3]
      have hl : ∀ c, ((u.modPort p fun y => { y with tx := y.tx.ended (cs ++ [c]) }).dataAt d.ingress) =
          (u.modPort p fun y => { y with tx := y.tx.ended cs }).dataAt d.ingress := by
        intro c; cases p <;> cases d.ingress <;> rfl
      have hr : ∀ c, (u.modPort p fun y => { y with tx := y.tx.ended cs }).raiseTx p c =
          u.modPort p fun y => { y with tx := y.tx.ended (cs ++ [c]) } := by
        intro c
        cases p <;> simp [State.raiseTx, State.raiseTxBy, State.modTx, State.modPort, TxPath.ended, raiseAll]
      rw [hl, hown]
      split
      · rw [← hr]
        cases p <;> cases d.ingress <;>
          simp [State.enqueue, State.raiseTx, State.raiseTxBy, State.modTx, State.modPort]
      · rw [hr, show s.commitCount = (u.modPort p fun y =>
          { y with tx := y.tx.ended (cs ++ [.noticesDropped]) }).commitCount by rw [hc]; simp, State.reportFreed_eq]
        rfl
    · have hf : d.makesNotice = false := by
        cases h : d.makesNotice
        · rfl
        · exact absurd ((Failure.noticed_iff d).1 h) hn
      simp only [hf, Bool.false_eq_true, if_false, if_neg hn]
      exact State.endFreed_ended h1 h2 h3

/-! ### The events -/

/-- R118: the completion of a send whose last stop bit has passed, no collision having shown. -/
theorem exec_sendComplete {s : State} {dt : Nat} {p : Port} {w start : Nat} {x : Slot}
    (h1 : (s.port p).tx.state = .sending w start) (h2 : (s.port p).tx.pos = some x)
    (hc : (s.port p).clash = none)
    (h3 : start + (7 + x.frame.payload.length) * 10 * s.bitTime p ≤ s.clock + dt) :
    exec (.sendComplete dt p) s =
      .next ((s.elapse dt).sendDone p x (start + (7 + x.frame.payload.length) * 10 * s.bitTime p)) := by
  simp only [exec, execSendComplete]
  unfold State.completeSend
  rw [State.elapse_port, h1, h2]
  simp only [State.byteEnd, Frame.lineLength, Config.frameOverhead, Config.bitsPerByte, State.elapse_bitTime,
    State.elapse_clock]
  rw [if_pos ⟨hc, h3⟩]

/-- R118: the end of byte `k` of a send, in which a collision has shown. -/
theorem exec_collision {s : State} {dt : Nat} {p : Port} {k w start : Nat} {x : Slot}
    (h1 : (s.port p).tx.state = .sending w start) (h2 : (s.port p).tx.pos = some x)
    (hc : (s.port p).clash = some k) (h3 : start + k * 10 * s.bitTime p ≤ s.clock + dt) :
    exec (.collision dt p k) s =
      .next ((s.elapse dt).collided p x w k (start + k * 10 * s.bitTime p)) := by
  simp only [exec, execCollision]
  unfold State.collide
  rw [State.elapse_port, h1, h2]
  simp only [State.byteEnd, Config.bitsPerByte, State.elapse_bitTime, State.elapse_clock]
  rw [if_pos ⟨hc, h3⟩]

/-- R54: FENCED acts on a marked frame in one of the states in which it ends at once. -/
theorem exec_fenced {s : State} {dt : Nat} {p : Port} (h1 : (s.port p).tx.state.endsFencedNow = true)
    (h2 : s.markedAt p = true) : exec (.fenced dt p) s = .next ((s.elapse dt).endFenced p) := by
  simp only [exec, execFenced, State.obeyMark]
  rw [if_pos ⟨by simpa using h1, by simpa [State.markedAt] using h2⟩]

end Sys2Proof.Machine
end

