-- ==== Sys2Proof/Laws/Restart.lean ====
section
/-! SUPPORT. A response that carries a restart trigger: what its terminal outcome is, for each event that can bring it
(R127, R145). -/

namespace Sys2Proof.Machine

/-- A response that fails is freed, and its restart trigger acts. -/
theorem State.endFailed_mgmt {s : State} {p : Port} {m : MgmtSlot} (h : (s.port p).tx.pos = some (.mgmt m))
    (f : Failure) : s.endFailed p f = (s.vacate p).runTrigger m.trigger := by
  unfold State.endFailed
  rw [h]
  exact State.endFreed_mgmt h

theorem State.markedAt_mgmt {s : State} {p : Port} {m : MgmtSlot} (h : (s.port p).tx.pos = some (.mgmt m)) :
    s.markedAt p = false := by simp [State.markedAt, h, Slot.marked]

/-- R119: the retry check of a response with no attempt left. -/
theorem State.retryCheck_mgmt {s : State} {p : Port} {m : MgmtSlot} (h : (s.port p).tx.pos = some (.mgmt m))
    (ha : (s.port p).params.retryLimit < (s.port p).tx.attempts) (failed : Nat) :
    s.retryCheck p failed = ((s.raiseTx p .retryExhausted).vacate p).runTrigger m.trigger := by
  unfold State.retryCheck
  rw [if_pos (by omega), State.endFailed_mgmt (by simpa using h)]

/-- R98: a frame that answers the one in the position is the awaited reply. -/
theorem State.awaited_answer {s : State} {p : Port} {x : Slot} {f : Frame} (h : (s.port p).tx.pos = some x)
    (ha : f.Answers x.frame) : s.awaited p (.good f) = f.type.reply := by
  simp [State.awaited, h, ha.2.1, ha.2.2.1, ha.2.2.2]

theorem State.awaited_other {s : State} {p : Port} {x : Slot} {v : Screened} (h : (s.port p).tx.pos = some x)
    (ha : ∀ f, v = .good f → ¬f.Answers x.frame) : s.awaited p v = none := by
  unfold State.awaited
  rw [h]
  cases v with
  | failed c => rfl
  | good f =>
    simp only [ite_eq_right_iff]
    intro hf
    cases ht : f.type <;> first | rfl | exact absurd ⟨by simp [ht], hf⟩ (ha f rfl)

/-- R98: a frame end that brings the awaited reply settles the frame sent. -/
theorem exec_frameEnd_answer {s : State} {dt w : Nat} {p : Port} {x : Slot} {f : Frame} {r : ReplyType}
    (h1 : s.Ends dt p) (h2 : (s.port p).rx.inWait = true) (h3 : (s.port p).tx.state = .awaitReply w)
    (hp : (s.port p).tx.pos = some x) (hm : x.marked = false) (h4 : s.screened p = .good f)
    (h5 : f.Answers x.frame) (hr : f.type.reply = some r) :
    exec (.frameEnd dt p) s = .next ((((s.elapse dt).raiseRx p .rxGood).endSilent p).settle p r) := by
  have hd : (s.elapse dt).decidesWait p = true := by simp [State.decidesWait, h2, h3, TxState.isAwaiting]
  rw [exec_frameEnd h1, State.settleMark_of_unmarked (by simp [State.markedAt, hp, hm]), State.judgeFrame,
    if_pos hd, h4, State.awaited_answer (x := x) (by simpa using hp) h5, hr]

/-- The state a response's terminal outcome leaves before its restart trigger acts. -/
def State.responseEnded (s : State) (dt : Nat) (p : Port) (rx : RxPath) (i : Nat) (k : Option Nat)
    (tx : List TxCounter) : State :=
  (s.elapse dt).modPort p fun x => { x with rx := rx, tx := x.tx.ended tx, idleSince := i, clash := k }

theorem exec_responseEnds {s : State} {p : Port} {m : MgmtSlot} {c : Instr} {rx : List RxCounter}
    {tx : List TxCounter} (hp : (s.port p).tx.pos = some (.mgmt m)) (h : s.ResponseEnds p m c rx tx) :
    ∃ (r : RxPath) (i : Nat) (k : Option Nat),
      r.counters = raiseAll RxCounter.index rx (s.port p).rx.counters ∧ r.filter = (s.port p).rx.filter ∧
      ((exec c s = .next ((s.responseEnded (dtOf c) p r i k tx).runTrigger m.trigger) ∧
          ¬(rx = [] ∧ c = .frameEnd (dtOf c) p)) ∨
        (exec c s = .next
            (((s.responseEnded (dtOf c) p r i k tx).runTrigger m.trigger).handleFrame p (s.screened p)) ∧
          r = (s.port p).rx ∧ i = (s.port p).idleSince ∧ s.Ends (dtOf c) p ∧ rx = [] ∧
          c = .frameEnd (dtOf c) p)) := by
  have hk := State.markedAt_mgmt hp
  have hke : ∀ dt, (s.elapse dt).markedAt p = false := fun dt => State.markedAt_mgmt (m := m) (by simpa using hp)
  cases h with
  | deferExhausted dt gap start limit h1 h2 h3 =>
    refine ⟨(s.port p).rx, (s.port p).idleSince, (s.port p).clash, rfl, rfl, .inl ⟨?_, by simp⟩⟩
    simp only [exec, execDeferExhausted]
    unfold State.exhaustDefer
    rw [State.elapse_port, h1]
    simp only
    rw [if_pos ⟨h2, h3, hke dt⟩, State.endFailed_mgmt (m := m) (by simpa using hp)]
    cases p <;> rfl
  | lastCollision dt k w start h1 h2 h3 h4 h5 =>
    refine ⟨{ (s.port p).rx with holdOff := decide (start + k * 10 * s.bitTime p ≤ (s.port p).idleSince) },
      max (s.port p).idleSince (start + k * 10 * s.bitTime p), none, rfl, rfl, .inl ⟨?_, by simp⟩⟩
    rw [exec_collision h1 hp h2 h3, State.collided, if_pos h4]
    simp only [Slot.marked, Bool.false_eq_true, if_false]
    rw [State.retryCheck_mgmt (m := m)]
    · cases p <;> rfl
    · cases p <;> exact hp
    · cases p <;> simp [State.countCollision, State.modTx, State.modPort, State.port, State.raiseTx, State.raiseTxBy, State.driverOff, State.elapse] at h5 ⊢ <;> omega
  | lateCollision dt k w start h1 h2 h3 h4 =>
    refine ⟨{ (s.port p).rx with holdOff := decide (start + k * 10 * s.bitTime p ≤ (s.port p).idleSince) },
      max (s.port p).idleSince (start + k * 10 * s.bitTime p), none, rfl, rfl, .inl ⟨?_, by simp⟩⟩
    rw [exec_collision h1 hp h2 h3, State.collided, if_neg (by omega)]
    simp only [Slot.marked, Bool.false_eq_true, if_false]
    rw [State.endFailed_mgmt (m := m)]
    · cases p <;> rfl
    · cases p <;> exact hp
  | noReply dt w h1 h2 h3 h4 =>
    refine ⟨(s.port p).rx, (s.port p).idleSince, (s.port p).clash, rfl, rfl, .inl ⟨?_, by simp⟩⟩
    simp only [exec, execNoReply]
    unfold State.exhaustWait
    rw [State.elapse_port, h1]
    simp only
    rw [if_pos ⟨(State.elapse_idleReached s dt w p).2 h2, h3, hke dt⟩, State.endNoReply, State.retryCheck_mgmt (m := m)]
    · cases p <;> rfl
    · cases p <;> exact hp
    · cases p <;> simp [State.modTx, State.modPort, State.port, State.raiseTx, State.raiseTxBy, State.elapse] at h4 ⊢ <;> omega
  | otherFrame dt w h1 h2 h3 h4 h5 =>
    refine ⟨(s.port p).rx, (s.port p).idleSince, (s.port p).clash, rfl, rfl, .inr ⟨?_, rfl, rfl, h1, rfl, rfl⟩⟩
    have hd : (s.elapse dt).decidesWait p = true := by simp [State.decidesWait, h2, h3, TxState.isAwaiting]
    rw [exec_frameEnd h1, State.settleMark_of_unmarked (hke dt), State.judgeFrame, if_pos hd,
      State.awaited_other (x := .mgmt m) (by simpa using hp) h4]
    simp only
    rw [State.endNoReply, State.retryCheck_mgmt (m := m)]
    · cases p <;> rfl
    · cases p <;> exact hp
    · cases p <;> simp [State.modTx, State.modPort, State.port, State.raiseTx, State.raiseTxBy, State.elapse] at h5 ⊢ <;> omega
  | delivered dt w f h1 h2 h3 h4 h5 h6 =>
    refine ⟨{ (s.port p).rx with
        state := .idle
        inWait := false
        counters := raiseAll RxCounter.index [.rxGood] (s.port p).rx.counters }, (s.port p).idleSince,
      (s.port p).clash, rfl, rfl, .inl ⟨?_, by simp⟩⟩
    rw [exec_frameEnd_answer h1 h2 h3 hp rfl h4 h5 (r := .ack) (by rw [h6]; rfl)]
    simp only [State.settle, State.endDelivered]
    rw [State.endFreed_mgmt (m := m)]
    · generalize hco : (s.port p).tx.collisions = co
      have hco' : ((((s.elapse dt).raiseRx p .rxGood).endSilent p).port p).tx.collisions = co := by
        cases p <;> exact hco
      rw [hco']
      unfold deliveredCounts
      by_cases c0 : co = 0
      · subst c0; cases p <;> rfl
      · by_cases c1 : co = 1
        · subst c1; cases p <;> rfl
        · simp only [c0, c1, if_false, if_pos (show 2 ≤ co by omega)]; cases p <;> rfl
    · split <;> (try split) <;> (cases p <;> exact hp)
  | busyExhausted dt w f h1 h2 h3 h4 h5 h6 h7 =>
    refine ⟨{ (s.port p).rx with
        state := .idle
        inWait := false
        counters := raiseAll RxCounter.index [.rxGood] (s.port p).rx.counters }, (s.port p).idleSince,
      (s.port p).clash, rfl, rfl, .inl ⟨?_, by simp⟩⟩
    rw [exec_frameEnd_answer h1 h2 h3 hp rfl h4 h5 (r := .busy) (by rw [h6]; rfl)]
    simp only [State.settle, State.endBusy]
    rw [if_pos (by cases p <;> exact Nat.lt_succ_of_le h7), State.endFailed_mgmt (m := m)]
    · cases p <;> rfl
    · cases p <;> exact hp
  | refused dt w f h1 h2 h3 h4 h5 h6 =>
    refine ⟨{ (s.port p).rx with
        state := .idle
        inWait := false
        counters := raiseAll RxCounter.index [.rxGood] (s.port p).rx.counters }, (s.port p).idleSince,
      (s.port p).clash, rfl, rfl, .inl ⟨?_, by simp⟩⟩
    rw [exec_frameEnd_answer h1 h2 h3 hp rfl h4 h5 (r := .refuse) (by rw [h6]; rfl)]
    simp only [State.settle, State.endRefused]
    rw [State.endFailed_mgmt (m := m)]
    · cases p <;> rfl
    · cases p <;> exact hp
end Sys2Proof.Machine
end

