-- ==== Sys2Proof/WellFormed.lean ====
section
/-! DEFINITION. Which commands are well formed: their operands name something that can happen on a line. -/

namespace Sys2Proof

/-- Activity lasts at least one bit time (R80). -/
def Activity.wellFormed : Activity → Bool
  | .byte _ _ => true
  | .noise bits => decide (1 ≤ bits)

/-- R86: bytes are numbered from 1 at the first byte of the frame, and a frame has at most 247 bytes; a
reply has 7. -/
def Instr.wellFormed : Instr → Bool
  | .collision _ _ k => decide (1 ≤ k ∧ k ≤ Config.bufferBytes)
  | .replyCollision _ _ k => decide (1 ≤ k ∧ k ≤ Config.frameOverhead)
  | .byteReceived _ _ act => act.wellFormed
  | .powerOnReset _ | .frameEnd _ _ | .replyGapReached _ _ | .replySent _ _ | .replyAbandoned _ _
  | .selection _ _ | .gapReached _ _ | .deferExhausted _ _ | .sendComplete _ _ | .backoffEnd _ _
  | .noReply _ _ | .busyHoldEnd _ _ | .fenced _ _ | .meterRefill _ _ | .leaseLapse _ | .fenceTimeout _
  | .identify _ | .enrol _ _ | .dismiss _ _ | .openEdit _ | .writeRule _ | .writeProfile _ | .commit _
  | .abandon _ | .readRule _ | .readProfile _ | .readHits _ | .setMeter _ | .readMeter _ | .setPort _
  | .readPort _ | .readCounters _ | .readStore _ | .restartPort _ | .restart _ | .unknownCommand _ => true

end Sys2Proof
end

