-- ==== Sys2Proof/Tests/Slice0.lean ====
section
/-! SUPPORT. Tests of the model on small states, one step each, with the results the manual works out or states;
and for each statement with hypotheses a concrete state that meets them. -/

/- The tests are many small kernel evaluations: one after another they need one stack, all at once dozens. -/
set_option Elab.async false

namespace Sys2Proof.Tests

open Sys2Proof Sys2Proof.Machine

/-! ### Small states -/

/-- The state a command leaves. -/
def after (c : Instr) (s : State) : State :=
  match exec c s with
  | .next t => t
  | _ => s

/-- The state one step leaves. -/
def afterStep (s : State) : State :=
  match step s with
  | .next t => t
  | _ => s

/-- The bytes of a list of numbers. -/
def bytes (l : List Nat) : List Byte := l.map (BitVec.ofNat 8)

/-- A data frame. -/
def dataFrame (dst src seq : Nat) (payload : List Nat) : Frame :=
  ⟨BitVec.ofNat 8 dst, BitVec.ofNat 8 src, .data, false, BitVec.ofNat 4 seq, 0, bytes payload⟩

/-- A frame without payload, as a reply is. -/
def replyFrame (t : FrameType) (dst src seq : Nat) : Frame :=
  ⟨BitVec.ofNat 8 dst, BitVec.ofNat 8 src, t, false, BitVec.ofNat 4 seq, 0, []⟩

/-- A management request to port A of the state after reset, own address 224. -/
def requestFrame (src : Nat) (payload : List Nat) : Frame :=
  ⟨224, BitVec.ofNat 8 src, .mgmt, false, 0, 0, bytes payload⟩

/-- A request slot from station `src` of port A. -/
def request (src : Nat) (payload : List Nat) : MgmtSlot :=
  ⟨.request, requestFrame src payload, .A, BitVec.ofNat 8 src, .none⟩

/-- A response slot with a trigger, for station 1 of port A. -/
def response (t : Trigger) : MgmtSlot := ⟨.response, ⟨1, 224, .mgmt, false, 0, 0, bytes [9, 18, 0, 0]⟩, .A, 1, t⟩

/-- A data-origin slot with a frame. -/
def dataSlot (f : Frame) : DataSlot := ⟨.forward, f, .B, 12, 11, 3, 0, 0, .A, .normal, false, false⟩

/-- Station 1 of port A writes, station 2 of port B reads. -/
def managed : State :=
  { State.reset with managers := [⟨.A, 1, .write, none, none⟩, ⟨.B, 2, .read, none, none⟩] }

/-- `managed`, with a request of the writer at the head of the agent queue. -/
def asked (payload : List Nat) : State := { managed with agentQueue := [request 1 payload] }

/-- `asked`, the writer owning the edit session. -/
def edited (payload : List Nat) : State := { asked payload with session := some ⟨.A, 1, 30, 30000⟩ }

/-- Port A in a transmit state, with a slot in its transmit position. -/
def holding (st : TxState) (x : Slot) : State :=
  { State.reset with portA := { State.reset.portA with tx := { State.reset.portA.tx with state := st, pos := some x } } }

/-- `s`, with frame `f` assembled at port A. -/
def received (s : State) (f : Frame) : State :=
  { s with
    portA := { s.portA with
      rx := { s.portA.rx with state := .receiving, buffer := f.onLine, count := f.onLine.length } } }

/-- `received`, the frame's first start bit read within the reply wait. -/
def answered (s : State) (f : Frame) : State :=
  { received s f with portA := { (received s f).portA with rx := { (received s f).portA.rx with inWait := true } } }

/-- A bank whose entry 0 matches every frame, with chain STOP and profile 0, and a given profile 0. -/
def ruled (e : RuleEntry) (q : Profile) : Bank :=
  { powerOnBank with entries := powerOnBank.entries.set 0 e, profiles := powerOnBank.profiles.set 0 q }

/-- An entry that matches every frame. -/
def anyFrame : RuleEntry := { powerOnEntry with valid := true, types := ⟨true, true, true⟩ }

/-- A profile that forwards to the other port, at the normal queue. -/
def forwards : Profile := { powerOnProfile with disposition := .forward, queue := .normal }

/-- The state after reset with one matching rule in the active bank. -/
def walking (e : RuleEntry) (q : Profile) : State := { State.reset with bankX := ruled e q }

/-- A state in the middle of much: a fence pending over one old slot that waits for its reply, a response with a
trigger queued, and an edit session. -/
def busy : State :=
  { managed with
    commitCount := 1
    session := some ⟨.A, 1, 30, 30000⟩
    fence := some ⟨500, request 1 [17, 7, 1, 0, 0]⟩
    restartPending := 1
    portA := { State.reset.portA with
      normal := [.mgmt (response (.restartPort .B))]
      tx := { State.reset.portA.tx with state := .awaitReply 40, pos := some (.data (dataSlot (dataFrame 12 11 3 []))) }
    } }

/-! ### Well-formedness: each check refuses a term that breaks it -/

theorem test_wellFormed_collision :
    (Instr.collision 0 .A 0).wellFormed = false ∧ (Instr.collision 0 .A 248).wellFormed = false ∧
      (Instr.collision 0 .A 247).wellFormed = true := by decide

theorem test_wellFormed_replyCollision :
    (Instr.replyCollision 0 .B 0).wellFormed = false ∧ (Instr.replyCollision 0 .B 8).wellFormed = false ∧
      (Instr.replyCollision 0 .B 7).wellFormed = true := by decide

theorem test_wellFormed_noise :
    (Instr.byteReceived 0 .A (.noise 0)).wellFormed = false ∧
      (Instr.byteReceived 0 .A (.noise 1)).wellFormed = true := by decide

/-! ### Formats (11_formats_and_encodings.md) -/

/-- The check of the digits 1 to 9 under this generator and start value is 29B1H (PRESUMED: general knowledge). -/
theorem test_crc : crc (bytes [49, 50, 51, 52, 53, 54, 55, 56, 57]) = 0x29B1#16 := by decide +kernel

/-- 11.1: kind bytes 35 of a normal DATA frame with sequence 3, and 99 of an ACK with sequence 3. -/
theorem test_kindByte : kindByte .data false 3 = 35 ∧ kindByte .ack false 3 = 99 := by decide

/-- R17: OFFSET 100 of source 200 is 45. -/
theorem test_srcOffset : (SrcRewrite.offset 100).apply 200 7 = 45 := by decide

/-- R120: own address 6 and ladder step 1 back off 112 bit times. -/
theorem test_backoffBits :
    PortState.backoffBits { State.reset.portA with inForce := ⟨.k62, 6, 24⟩ } 1 = 112 := by decide

/-- No word spells a command. -/
theorem test_decodeTableWord : decodeTableWord 32 1 = none := by decide

/-! ### The step -/

theorem test_step_takesTheFront :
    (afterStep { State.reset with pending := [.meterRefill 7 0, .leaseLapse 5] }).pending = [.leaseLapse 5] ∧
      (afterStep { State.reset with pending := [.meterRefill 7 0, .leaseLapse 5] }).clock = 7 := by decide +kernel

theorem test_step_idle : (afterStep State.reset).clock = 1 := by decide +kernel

/-! ### The port commands, one step each -/

/-- R91, R90, R184: strap 31 gives address 254, rate strap 3 the third rate; the level of ENROL_EN stays. -/
theorem test_powerOnReset :
    let s := after (.powerOnReset ⟨31, 5, 3, 1⟩) { busy with pins := ⟨resetStraps, true⟩ }
    s.portA.inForce.own = 254 ∧ s.portB.inForce.own = 229 ∧ s.portA.inForce.rate = .k1000 ∧
      s.portB.inForce.rate = .k250 ∧ s.pins.enrolEn = true ∧ s.fence = none := by decide +kernel

/-- R96: at 3 bt of idle time a frame that no rule matches is good and not taken; at less nothing ends. -/
theorem test_frameEnd_unmatched :
    (after (.frameEnd 48 .A) (received .reset (dataFrame 12 11 3 []))).rxCount .A .notTaken = 1 ∧
      (after (.frameEnd 47 .A) (received .reset (dataFrame 12 11 3 []))).portA.rx.state = .receiving := by
  decide +kernel

/-- R22, R105: a taken unicast frame joins the other port's queue and is answered with ACK. -/
theorem test_frameEnd_taken :
    let s := after (.frameEnd 48 .A) (received (walking anyFrame forwards) (dataFrame 12 11 3 [1, 2]))
    s.portB.normal.map Slot.frame = [dataFrame 12 11 3 [1, 2]] ∧ s.bankX.hits[0] = 1 ∧
      s.portA.rx.state = .oweReply ⟨.ack, 11, 12, 3⟩ := by decide +kernel

/-- A state of port A that owes or sends a reply. -/
def replyingAt (r : RxState) : State :=
  { State.reset with portA := { State.reset.portA with rx := { State.reset.portA.rx with state := r } } }

/-- Port A drives, and a collision has shown in byte `k`. -/
def clashed (k : Nat) (s : State) : State := { s with portA := { s.portA with clash := some k } }

/-- R106: the reply starts at 10 bt of idle time, 160 microseconds at the first rate. -/
theorem test_replyGapReached :
    (after (.replyGapReached 160 .A) (replyingAt (.oweReply ⟨.ack, 107, 12, 3⟩))).driven .A =
        [107, 12, 99, 0, 0] ++ checkBytes [107, 12, 99, 0, 0] ∧
      (after (.replyGapReached 159 .A) (replyingAt (.oweReply ⟨.ack, 107, 12, 3⟩))).driven .A = [] := by
  decide +kernel

/-- R106: a BUSY sent whole is counted. -/
theorem test_replySent :
    (after (.replySent 1120 .A) (replyingAt (.replying ⟨.busy, 107, 12, 3⟩ 0))).rxCount .A .busySent = 1 ∧
      (after (.replySent 1119 .A) (replyingAt (.replying ⟨.busy, 107, 12, 3⟩ 0))).rxCount .A .busySent = 0 := by
  decide +kernel

/-- R108: a collision that has shown in byte 1 loses the reply at the end of that byte. -/
theorem test_replyCollision :
    let s := clashed 1 (replyingAt (.replying ⟨.busy, 107, 12, 3⟩ 0))
    (after (.replyCollision 160 .A 1) s).rxCount .A .replyLost = 1 ∧
      (after (.replyCollision 160 .A 1) s).portA.rx.state = .idle ∧
      (after (.replySent 1120 .A) s).rxCount .A .busySent = 0 := by decide +kernel

/-- R107: a start bit before the reply gap loses the reply and begins a frame. -/
theorem test_replyAbandoned :
    let s := after (.replyAbandoned 159 .A) (replyingAt (.oweReply ⟨.ack, 107, 12, 3⟩))
    s.rxCount .A .replyLost = 1 ∧ s.portA.rx.state = .receiving := by decide +kernel

/-- R95: a byte begins a frame, and its activity lasts 10 bit times. -/
theorem test_byteReceived :
    let s := after (.byteReceived 5 .A (.byte 7 true)) .reset
    s.portA.rx.buffer = [7] ∧ s.portA.idleSince = 165 := by decide +kernel

/-- R81, R86: a port that sends 12, 11, … from time 0 reads its own first byte; the same byte in place of the second,
or out of step with its own, is a collision in the byte being sent. -/
theorem test_byteReceived_driving :
    let s := holding (.sending 12 0) (.data (dataSlot (dataFrame 12 11 9 [])))
    (after (.byteReceived 0 .A (.byte 12 true)) s).portA.clash = none ∧
      (after (.byteReceived 160 .A (.byte 11 true)) s).portA.clash = none ∧
      (after (.byteReceived 160 .A (.byte 12 true)) s).portA.clash = some 2 ∧
      (after (.byteReceived 80 .A (.byte 12 true)) s).portA.clash = some 1 := by decide +kernel

/-- R80: 12 is 00001100, sent low-order bit first between its start and stop bits. -/
theorem test_byteBits :
    byteBits 12 = [.start, .data false, .data false, .data true, .data true, .data false, .data false, .data false,
      .data false, .stop] := by decide

/-- R80, 12: a port that sends 12, 11, … from time 0 at 16 microseconds a bit: the first byte's start bit, its third
data bit, its stop bit, the next start bit; the line is not idle until the last of 70 bits has ended. -/
theorem test_txd :
    let s := holding (.sending 12 0) (.data (dataSlot (dataFrame 12 11 9 [])))
    [0, 15, 48, 159, 160, 1119, 1120].map (fun d => (s.elapse d).txd .A) =
        [.start, .start, .data true, .stop, .start, .stop, .idle] ∧
      [0, 1119, 1120, 1125].map (fun d => (s.elapse d).idleTime .A) = [0, 0, 0, 5] := by decide +kernel

/-- R81, R95: noise at 20 microseconds is a collision in byte 1, which ends at 160. Where it lasted one bit time, a
start bit at 192 begins a frame; where it lasted ten, to 180, one at 192 does not, and one at 228, after 3 bt, does. -/
theorem test_collision_then_byte :
    let s (bits : Nat) := after (.collision 140 .A 1) (after (.byteReceived 20 .A (.noise bits))
      (holding (.sending 12 0) (.data (dataSlot (dataFrame 12 11 9 [])))))
    (after (.byteReceived 32 .A (.byte 7 true)) (s 1)).portA.rx.buffer = [7] ∧
      (after (.byteReceived 32 .A (.byte 7 true)) (s 10)).portA.rx.buffer = [] ∧
      (after (.byteReceived 68 .A (.byte 7 true)) (s 10)).portA.rx.buffer = [7] := by decide +kernel

/-- Port A with a slot at the head of its normal queue. -/
def queued (x : Slot) : State := { State.reset with portA := { State.reset.portA with normal := [x] } }

/-- R113, R115, R116: the head enters DEFER with the normal gap, and its source's sequence advances. -/
theorem test_selection :
    let s := after (.selection 0 .A) (queued (.data (dataSlot (dataFrame 12 11 9 []))))
    s.portA.tx.state = .defer 72 0 100 ∧ s.portA.tx.pos.map (fun x => x.frame.seq) = some 0 ∧
      s.portA.tx.seqTable[11] = 1 ∧ s.portA.normal = [] := by decide +kernel

/-- R114: a slot older than the age limit of 1000 ms is aged; one of exactly that age is sent. -/
theorem test_selection_aged :
    (after (.selection 1001000 .A) (queued (.data (dataSlot (dataFrame 12 11 9 []))))).txCount .A .aged = 1 ∧
      (after (.selection 1000000 .A) (queued (.data (dataSlot (dataFrame 12 11 9 []))))).txCount .A .aged = 0 := by
  decide +kernel

/-- R116: the send begins at the gap, with the window in force. -/
theorem test_gapReached :
    (after (.gapReached 1152 .A) (holding (.defer 72 0 100) (.data (dataSlot (dataFrame 12 11 9 []))))).portA.tx.state
        = .sending 12 1152 ∧
      (after (.gapReached 1151 .A) (holding (.defer 72 0 100) (.data (dataSlot (dataFrame 12 11 9 []))))).portA.tx.state
        = .defer 72 0 100 := by decide +kernel

/-- R117: the defer limit is exceeded at 101 ms, not at 100. -/
theorem test_deferExhausted :
    (after (.deferExhausted 101000 .A) (holding (.defer 72 0 100)
        (.data (dataSlot (dataFrame 12 11 9 []))))).txCount .A .deferExhausted = 1 ∧
      (after (.deferExhausted 100999 .A) (holding (.defer 72 0 100)
        (.data (dataSlot (dataFrame 12 11 9 []))))).txCount .A .deferExhausted = 0 := by decide +kernel

/-- R118, R121: after 7 bytes, 1120 microseconds, the path waits for its reply. -/
theorem test_sendComplete :
    let s := after (.sendComplete 1120 .A) (holding (.sending 12 0) (.data (dataSlot (dataFrame 12 11 9 []))))
    s.portA.tx.state = .awaitReply 40 ∧ s.portA.rx.lastSent = some 11 := by decide +kernel

/-- R86, R118: a collision in byte 12 is ordinary, in byte 13 late; after either the send is not completed. -/
theorem test_collision :
    let s := holding (.sending 12 0) (.data (dataSlot (dataFrame 12 11 9 [1, 2, 3, 4, 5, 6])))
    (after (.collision 1920 .A 12) (clashed 12 s)).txCount .A .collisions = 1 ∧
      (after (.collision 2080 .A 13) (clashed 13 s)).txCount .A .lateCollision = 1 ∧
      (after (.sendComplete 2080 .A) (clashed 13 s)).portA.tx.state = .sending 12 0 := by decide +kernel

/-- R120: after a collision in byte 1, which ends at 160, a backoff of 16 bt ends at 416, however late COLLISION is. -/
theorem test_collision_backoff :
    let s := clashed 1 (holding (.sending 12 0) (.data (dataSlot (dataFrame 12 11 9 []))))
    [160, 300].map (fun dt => (after (.collision dt .A 1) s).portA.tx.state) = [.backoff 416, .backoff 416] := by
  decide +kernel

/-- R120: the backoff's end. -/
theorem test_backoffEnd :
    (after (.backoffEnd 256 .A) (holding (.backoff 256) (.data (dataSlot (dataFrame 12 11 9 []))))).portA.tx.state
      = .defer 72 0 100 := by decide +kernel

/-- R124, R120: a reply wait of 40 bt that ends with no reply backs off; own address 224 and step 1 give 16 bt. -/
theorem test_noReply :
    let s := after (.noReply 640 .A) (holding (.awaitReply 40) (.data (dataSlot (dataFrame 12 11 9 []))))
    s.txCount .A .noReply = 1 ∧ s.portA.tx.state = .backoff 896 := by decide +kernel

/-- R123: the busy hold's end. -/
theorem test_busyHoldEnd :
    (after (.busyHoldEnd 5000 .A) (holding (.busyHold 5) (.data (dataSlot (dataFrame 12 11 9 []))))).portA.tx.state
      = .sending 12 5000 := by decide +kernel

/-- R122: an awaited ACK delivers, after one collision as a single collision. -/
theorem test_frameEnd_ack :
    let h := holding (.awaitReply 40) (.data (dataSlot (dataFrame 12 11 9 [])))
    let s := after (.frameEnd 48 .A) (answered
      { h with portA := { h.portA with tx := { h.portA.tx with collisions := 1 } } } (replyFrame .ack 11 12 9))
    s.txCount .A .delivered = 1 ∧ s.txCount .A .singleCollision = 1 ∧ s.portA.tx.pos = none := by decide +kernel

/-- R54, R128: a marked frame in DEFER ends FENCED. -/
theorem test_fenced :
    (after (.fenced 0 .A) (holding (.defer 72 0 100)
      (.data { dataSlot (dataFrame 12 11 9 []) with mark := true }))).txCount .A .fenced = 1 := by decide +kernel

/-! ### The timers -/

/-- R28: at the end of its interval of 100 ms the meter is refilled up to its capacity. -/
theorem test_meterRefill :
    let s : State := { State.reset with meters := State.reset.meters.set 3 ⟨500, 300, 100, 400, 0⟩ }
    (after (.meterRefill 100000 3) s).meters[3] = ⟨500, 300, 100, 500, 100⟩ ∧
      (after (.meterRefill 99999 3) s).meters[3] = ⟨500, 300, 100, 400, 0⟩ := by decide +kernel

/-- R44: the lease lapses at its deadline. -/
theorem test_leaseLapse :
    (after (.leaseLapse 30000000) (edited [])).session = none ∧
      (after (.leaseLapse 29999999) (edited [])).session.isSome = true := by decide +kernel

/-! ### The agent -/

/-- The payload of the last slot of port A's normal queue. -/
def lastRecord (s : State) : List Byte := (s.portA.normal.getLast?.map fun x => x.frame.payload).getD []

/-- R53: the fence of `busy` times out with one marked slot: status 6, the bank, the count, one discard. -/
theorem test_fenceTimeout :
    lastRecord (after (.fenceTimeout 500000) busy) = [17, 7, 6, 6, 0, 0, 0, 0, 1, 1] ∧
      (after (.fenceTimeout 500000) busy).markedAt .A = true ∧
      (after (.fenceTimeout 499999) busy).fence.isSome = true := by decide +kernel

/-- R151: vendor 3127 is 0C37H, part 412 is 019CH. -/
theorem test_identify :
    lastRecord (after (.identify 0) (asked [9, 1])) =
      [9, 1, 0, 23, 12, 55, 1, 156, 1, 224, 224, 0, 0, 32, 128, 32, 16, 0, 0, 0, 0, 0, 0, 0, 0, 0, 2] := by
  decide +kernel

theorem test_enrol :
    ((after (.enrol 0 false) (asked [9, 2, 1, 7, 1])).manager .B 7).map (fun e => e.right) = some .read := by
  decide +kernel

/-- R137: the first manager of an empty table. -/
theorem test_enrol_first :
    let s := { State.reset with agentQueue := [request 1 [9, 2, 0, 1, 2]] }
    ((after (.enrol 0 true) s).manager .A 1).map (fun e => e.right) = some .write ∧
      (after (.enrol 0 false) s).managers = [] := by decide +kernel

theorem test_dismiss :
    (after (.dismiss 0 false) (asked [9, 3, 1, 2])).manager .B 2 = none ∧
      lastRecord (after (.dismiss 0 false) (asked [9, 3, 0, 1])) = [9, 3, 10, 0] := by decide +kernel

theorem test_openEdit :
    lastRecord (after (.openEdit 0) (asked [9, 4, 0, 2])) = [9, 4, 0, 2, 1, 30] := by decide +kernel

theorem test_writeRule :
    (after (.writeRule 0) (edited [9, 5, 127, 192, 7, 0, 0, 0, 0, 255, 31, 255, 0, 0, 0])).bankY.entries[127] =
      { anyFrame with profile := 31 } := by decide +kernel

theorem test_writeProfile :
    (after (.writeProfile 0) (edited [9, 6, 31, 0, 17, 3, 129])).bankY.profiles[31] =
      ⟨.forward, .same, .normal, .demote, false, some 1⟩ := by decide +kernel

/-- R48: mode SWAP answers at once with the new active bank and the new count. -/
theorem test_commit :
    lastRecord (after (.commit 0) (edited [9, 7, 0, 0, 0])) = [9, 7, 0, 6, 1, 0, 0, 0, 1, 0] ∧
      (after (.commit 0) (edited [9, 7, 0, 0, 0])).active = .Y := by decide +kernel

theorem test_abandon : (after (.abandon 0) (edited [9, 8])).session = none := by decide +kernel

/-- 11.3: the power-on entry, with a hit count of 0. -/
theorem test_readRule :
    lastRecord (after (.readRule 0) (asked [9, 9, 1, 127, 1])) =
      [9, 9, 0, 17, 1, 64, 1, 0, 0, 0, 0, 255, 0, 255, 0, 0, 0, 0, 0, 0, 0] := by decide +kernel

theorem test_readProfile :
    lastRecord (after (.readProfile 0) (asked [9, 10, 0, 31, 1])) = [9, 10, 0, 5, 0, 1, 2, 0, 0] := by decide +kernel

theorem test_readHits :
    lastRecord (after (.readHits 0) (asked [9, 11, 0, 127, 1, 0])) = [9, 11, 0, 5, 0, 0, 0, 0, 0] ∧
      lastRecord (after (.readHits 0) (asked [9, 11, 0, 127, 2, 0])) = [9, 11, 7, 0] := by decide +kernel

theorem test_setMeter :
    (after (.setMeter 5000) (asked [9, 12, 15, 1, 244, 0, 10, 3, 232])).meters[15] = ⟨500, 10, 1000, 500, 5⟩ := by
  decide +kernel

theorem test_readMeter :
    lastRecord (after (.readMeter 0) (asked [9, 13, 15, 1])) = [9, 13, 0, 8, 0, 0, 0, 0, 0, 100, 0, 0] := by
  decide +kernel

/-- R165: with mask bits 0 and 13 the reply wait is in force at once, the queue limit is staged. -/
theorem test_setPort :
    let s := after (.setPort 0) (asked ([9, 14, 1, 32, 1, 50] ++ List.replicate 22 0 ++ [30]))
    s.portB.params.replyWait = 50 ∧ s.portB.staged.queueLimit = 30 ∧ s.portB.inForce.queueLimit = 24 := by
  decide +kernel

theorem test_readPort :
    lastRecord (after (.readPort 0) (asked [9, 15, 1])) =
      [9, 15, 0, 28, 1, 40, 56, 72, 12, 7, 1, 2, 4, 8, 16, 32, 64, 128, 4, 5, 0, 100, 3, 232, 7, 208, 0, 0, 224, 224,
        24, 24] := by decide +kernel

/-- R167: the agent group includes the execution that reads it. -/
theorem test_readCounters :
    (lastRecord (after (.readCounters 0) (asked [9, 16, 4, 1]))).take 9 = [9, 16, 0, 45, 4, 0, 0, 0, 1] ∧
      (after (.readCounters 0) (asked [9, 16, 4, 1])).agentCount .requestsTaken = 0 := by decide +kernel

/-- R168: the request's own slot is counted, and no fence is pending. -/
theorem test_readStore :
    lastRecord (after (.readStore 0) (asked [9, 17])) = [9, 17, 0, 10, 31, 0, 1, 0, 0, 0, 0, 1, 0, 255] := by
  decide +kernel

theorem test_restartPort :
    (after (.restartPort 0) (asked [9, 18, 1])).restartPending = 1 ∧
      lastRecord (after (.restartPort 0) (asked [9, 18, 1])) = [9, 18, 0, 1, 1] := by decide +kernel

theorem test_restart : (after (.restart 0) (asked [9, 19])).restartPending = 1 := by decide +kernel

theorem test_unknownCommand :
    lastRecord (after (.unknownCommand 0) (asked [9, 20])) = [9, 20, 13, 0] ∧
      lastRecord (after (.unknownCommand 0) (asked [9])) = [9, 0, 12, 0] := by decide +kernel

/-! ### Witnesses: a concrete state that meets the hypotheses of each statement, clause by clause -/

/-- `busy` at the end of the awaited ACK's frame, that frame end waiting in the queue. -/
def busyStep : State := { answered busy (replyFrame .ack 11 12 3) with pending := [.frameEnd 48 .A] }

theorem witness_StepRunsFrontCommand : busyStep.pending = .frameEnd 48 .A :: [] := by decide

theorem witness_EmptyQueuePassesOneMicrosecond : busy.pending = [] := by decide

/-- The step of `busyStep` delivers the old frame, and with it ends the fence. -/
theorem busyStep_next : step busyStep = .next (after (.frameEnd 48 .A) (answered busy (replyFrame .ack 11 12 3))) := rfl

theorem witness_StepKeepsStoreCaps : ∃ t, busyStep.StoreSound ∧ step busyStep = .next t :=
  ⟨_, by decide +kernel, busyStep_next⟩

theorem witness_StepKeepsPlaces :
    ∃ t, (busyStep.KindsSound ∧ busyStep.PositionsSound) ∧ step busyStep = .next t :=
  ⟨_, by decide +kernel, busyStep_next⟩

theorem witness_StepKeepsOneDriver : ∃ t, busyStep.DriversSound ∧ step busyStep = .next t :=
  ⟨_, by decide +kernel, busyStep_next⟩

theorem witness_StepKeepsFenceNonEmpty :
    ∃ t, (busyStep.PositionsSound ∧ busyStep.FenceSound) ∧ step busyStep = .next t :=
  ⟨_, by decide +kernel, busyStep_next⟩

theorem witness_StepKeepsRestartMark :
    ∃ t, (busyStep.PositionsSound ∧ busyStep.MarkSound ∧ busyStep.MarkBounded) ∧ step busyStep = .next t :=
  ⟨_, by decide +kernel, busyStep_next⟩

theorem witness_StepKeepsManagersAndOwner :
    ∃ t, (busyStep.ManagersSound ∧ busyStep.SessionSound) ∧ step busyStep = .next t :=
  ⟨_, by decide +kernel, busyStep_next⟩

theorem witness_StepKeepsRanges :
    ∃ t, (busyStep.MetersSound ∧ busyStep.ParamsSound) ∧ step busyStep = .next t :=
  ⟨_, by decide +kernel, busyStep_next⟩

/-- The commands of these four statements: any but power-on reset, a commit among them. -/
theorem witness_DesignationMovesOnlyAtCommit :
    ∃ t, isPowerOn (.commit 0) = false ∧ exec (.commit 0) (edited [9, 7, 0, 0, 0]) = .next t ∧ t.active = .Y :=
  ⟨_, rfl, rfl, by decide +kernel⟩

theorem witness_BanksChangeOnlyByTheirEvents :
    ∃ t, isPowerOn (.frameEnd 48 .A) = false ∧
      exec (.frameEnd 48 .A) (received (walking anyFrame forwards) (dataFrame 12 11 3 [])) = .next t ∧
      t.bankX.hits[0] = 1 := ⟨_, rfl, rfl, by decide +kernel⟩

theorem witness_ManagersChangeOnlyByEnrolAndDismiss :
    ∃ t, isPowerOn (.enrol 0 false) = false ∧ exec (.enrol 0 false) (asked [9, 2, 1, 7, 1]) = .next t ∧
      t.managers.length = 3 := ⟨_, rfl, rfl, by decide +kernel⟩

theorem witness_ClockRunsThroughEveryCommand :
    ∃ t, isPowerOn (.frameEnd 48 .A) = false ∧
      exec (.frameEnd 48 .A) (answered busy (replyFrame .ack 11 12 3)) = .next t ∧ t.clock = 48 :=
  ⟨_, rfl, rfl, by decide +kernel⟩

theorem witness_CountersFallOnlyWhenRead :
    ∃ t, isPowerOn (.frameEnd 48 .A) = false ∧ rowOf (.frameEnd 48 .A) ≠ some (some .readCounters) ∧
      exec (.frameEnd 48 .A) (answered busy (replyFrame .ack 11 12 3)) = .next t ∧
      t.txCount .A .delivered = 1 := ⟨_, rfl, by decide, rfl, by decide +kernel⟩

/-- Station 7 of port A is no manager. -/
theorem witness_NonManagersChangeNothing :
    let s (payload : List Nat) : State := { managed with agentQueue := [request 7 payload] }
    let empty : State := { State.reset with agentQueue := [request 7 [9, 2, 0, 7, 2]] }
    (rowOf (.restart 5) = some (request 7 [9, 19]).command ∧
      (s [9, 19]).agentQueue.head? = some (request 7 [9, 19]) ∧ (s [9, 19]).manager .A 7 = none ∧
      (request 7 [9, 19]).command ≠ some .enrol) ∧
    (rowOf (.enrol 5 true) = some (request 7 [9, 2, 0, 7, 2]).command ∧
      (s [9, 2, 0, 7, 2]).agentQueue.head? = some (request 7 [9, 2, 0, 7, 2]) ∧
      (s [9, 2, 0, 7, 2]).manager .A 7 = none ∧ (s [9, 2, 0, 7, 2]).managers ≠ []) ∧
    (rowOf (.enrol 5 false) = some (request 7 [9, 2, 0, 7, 2]).command ∧
      empty.agentQueue.head? = some (request 7 [9, 2, 0, 7, 2]) ∧ empty.manager .A 7 = none ∧
      (pinsAfter (.enrol 5 false) empty.pins).enrolEn = false) := by decide +kernel

/-- A manager whose last tag is 9, with the record that answered it. -/
def replayer : Manager := ⟨.A, 1, .write, some 9, some (9, [9, 19, 0, 0])⟩

theorem witness_ReplayAnswersFromTheCache :
    let s : State := { State.reset with managers := [replayer], agentQueue := [request 1 [9, 18, 1]] }
    rowOf (.restartPort 5) = some (request 1 [9, 18, 1]).command ∧
      s.agentQueue.head? = some (request 1 [9, 18, 1]) ∧ s.manager .A 1 = some replayer ∧
      (request 1 [9, 18, 1]).frame.payload.head? = some 9 ∧ (9 : Byte) ≠ 0 ∧
      replayer.last = some (9, [9, 19, 0, 0]) := by decide +kernel

/-- A request from station `src` of port `p`. -/
def requestAt (p : Port) (src : Nat) (payload : List Nat) : MgmtSlot := { request src payload with port := p }

/-- A state in which request `m` waits: `managed`, or the state after reset, whose manager table is empty. -/
def waiting (m : MgmtSlot) : State := { managed with agentQueue := [m] }
def unmanaged (m : MgmtSlot) : State := { State.reset with agentQueue := [m] }

/-- What the clauses of steps 4 and 5 ask of a request for a command. -/
abbrev Names (s : State) (c : Instr) (cmd : Command) (m : MgmtSlot) (code : Byte) (args : List Byte) : Prop :=
  s.Heads m 9 code args ∧ rowOf c = some (some cmd) ∧ m.command = some cmd ∧ s.Fresh m 9

/-- Requests without a code and of a code that names no command. Steps 4 and 5 have theorems of their own. -/
theorem witness_RefusalsOfTheHeaderAndTheRight :
    ((asked [9]).agentQueue.head? = some (request 1 [9]) ∧ (asked [9]).Fresh (request 1 [9]) 9 ∧
      (request 1 [9]).frame.payload = [9]) ∧
    ((asked []).agentQueue.head? = some (request 1 []) ∧ (request 1 []).frame.payload = []) ∧
    (∀ code ∈ [0, 20, 255], (asked [9, code]).Heads (request 1 [9, code]) 9 (BitVec.ofNat 8 code) [] ∧
      (asked [9, code]).Fresh (request 1 [9, code]) 9 ∧
      (BitVec.ofNat 8 code = 0 ∨ 20 ≤ (BitVec.ofNat 8 code).toNat)) := by decide +kernel

/-- A station that is no manager that reads, and that enrols with the table not empty and with the pin low; a READ
manager that restarts and that enrols. -/
theorem witness_RefusalsOfTheHeaderAndTheRight_rights :
    let x := requestAt .A 7 [9, 17]
    let e := requestAt .A 7 [9, 2, 0, 7, 2]
    let r := requestAt .B 2 [9, 19]
    let d := requestAt .B 2 [9, 2, 0, 7, 2]
    (Names (waiting x) (.readStore 3) .readStore x 17 [] ∧ (waiting x).rightOf x = none) ∧
    (Names (waiting e) (.enrol 3 true) .enrol e 2 [0, 7, 2] ∧ (waiting e).rightOf e = none ∧
      (waiting e).managers ≠ []) ∧
    (Names (unmanaged e) (.enrol 3 false) .enrol e 2 [0, 7, 2] ∧ (unmanaged e).rightOf e = none ∧
      (pinsAfter (.enrol 3 false) (unmanaged e).pins).enrolEn = false) ∧
    (Names (waiting r) (.restart 3) .restart r 19 [] ∧ (waiting r).rightOf r = some .read) ∧
    (Names (waiting d) (.enrol 3 true) .enrol d 2 [0, 7, 2] ∧ (waiting d).rightOf d = some .read) := by
  decide +kernel

/-- Arguments of the wrong length: a READ manager's READ-STORE, IDENTIFY and a first ENROL of a station that is no
manager, a WRITE manager's RESTART-PORT. -/
theorem witness_RefusalsOfTheHeaderAndTheRight_lengths :
    let r := requestAt .B 2 [9, 17, 0]
    let i := requestAt .A 7 [9, 1, 0]
    let e := requestAt .A 7 [9, 2]
    let w := requestAt .A 1 [9, 18]
    (Names (waiting r) (.readStore 3) .readStore r 17 [0] ∧ (waiting r).rightOf r = some .read) ∧
    (Names (waiting i) (.identify 3) .identify i 1 [0] ∧ (waiting i).rightOf i = none) ∧
    (Names (unmanaged e) (.enrol 3 true) .enrol e 2 [] ∧ (unmanaged e).rightOf e = none ∧
      (unmanaged e).managers = [] ∧ (pinsAfter (.enrol 3 true) (unmanaged e).pins).enrolEn = true) ∧
    (Names (waiting w) (.restartPort 3) .restartPort w 18 [] ∧ (waiting w).rightOf w = some .write) := by
  decide +kernel

theorem witness_EntryMatches :
    State.reset.bankX.entries[(0 : Fin 128)].matches .A (dataFrame 12 11 3 []) = false := by decide +kernel

/-- A bank whose first five entries match every frame and go on. -/
def fiveOn : Bank :=
  let e := { anyFrame with chain := .continue }
  { powerOnBank with
    entries := ((((powerOnBank.entries.set 0 e).set 1 e).set 2 e).set 3 e).set 4 e }

theorem witness_WalkLeavesTheFrame :
    let f := dataFrame 12 11 3 []
    let s (b : Bank) : State := received { State.reset with bankX := b } f
    ((s fiveOn).EndsWalked 48 .A f ∧ (s fiveOn).activeBank.walk .A f = .overrun) ∧
    ((s powerOnBank).EndsWalked 48 .A f ∧ (s powerOnBank).activeBank.walk .A f = .unmatched) ∧
    (∀ d ∈ [Disposition.drop, .dropRefuse],
      (s (ruled anyFrame { forwards with disposition := d })).EndsWalked 48 .A f ∧
      (s (ruled anyFrame { forwards with disposition := d })).activeBank.walk .A f = .decided [0] 0 ∧
      (s (ruled anyFrame { forwards with disposition := d })).activeBank.profiles[(0 : Fin 32)].disposition = d) := by
  decide +kernel

/-- `s` with a filter record of sequence 3 for source 11 at port A, made at time 0. -/
def filtered (s : State) : State :=
  { s with portA := { s.portA with rx := { s.portA.rx with filter := s.portA.rx.filter.set 11 (some ⟨3, 0⟩) } } }

/-- A repeat up to 1 ms before the end of the duplicate window of 2000 ms; at its end no repeat, and the three
kinds of rewrite fault: the egress port's own address as destination and as source, and a MGMT broadcast. -/
theorem witness_RepeatOrRewriteFaultIsNotTaken :
    let f := dataFrame 12 11 3 []
    let g : Frame := { f with type := .mgmt }
    let s := filtered (received (walking anyFrame forwards) f)
    let via (e : RuleEntry) (f : Frame) := filtered (received (walking e forwards) f)
    let dst : RuleEntry := { anyFrame with dstRewrite := some 224 }
    let src : RuleEntry := { anyFrame with srcRewrite := .fixed 224 }
    let all : RuleEntry := { anyFrame with dstRewrite := some 255 }
    (s.EndsWalked 1999999 .A f ∧ s.activeBank.walk .A f = .decided [0] 0 ∧
      s.activeBank.profiles[(0 : Fin 32)].disposition = .forward ∧ f.dst ≠ 255 ∧
      (s.port .A).rx.filter[f.src.toNat]? = some (some ⟨3, 0⟩) ∧
      (s.clock + 1999999) / 1000 - 0 < (s.port .A).params.dupWindow) ∧
    ((via dst f).EndsWalked 2000000 .A f ∧ (via dst f).activeBank.walk .A f = .decided [0] 0 ∧
      (s.port .A).params.dupWindow ≤ (s.clock + 2000000) / 1000 - 0 ∧
      (via dst f).activeBank.newDst [0] f = 224) ∧
    ((via src f).EndsWalked 2000000 .A f ∧ (via src f).activeBank.walk .A f = .decided [0] 0 ∧
      (via src f).activeBank.newSrc [0] f = 224) ∧
    ((via all g).EndsWalked 2000000 .A g ∧ (via all g).activeBank.walk .A g = .decided [0] 0 ∧ g.type ≠ .data ∧
      (via all g).activeBank.newDst [0] g = 255) := by decide +kernel

/-- The state after reset with a rule that names meter 15, whose capacity and tokens are `n`. -/
def metered (q : Profile) (n : Nat) : State :=
  { walking { anyFrame with meter := some 15 } q with
    meters := State.reset.meters.set 15 ⟨n, 0, 100, n, 0⟩ }

/-- A full egress queue at port B: 24 slots. -/
def crowded : State :=
  { metered forwards 7 with
    portB := { State.reset.portB with normal := List.replicate 24 (.data (dataSlot (dataFrame 12 11 9 []))) } }

/-- A frame of 7 bytes does not conform to 6 tokens, and conforms to 7; the egress queue is full. -/
theorem witness_OverBudgetOrRefusedFrameIsNotTaken :
    let f := dataFrame 12 11 3 []
    (∀ policy ∈ [Policy.drop, .refuse, .busy, .demote],
      let s := received { metered { forwards with policy := policy } 6 with portB := crowded.portB } f;
      s.EndsWalked 48 .A f ∧ s.activeBank.walk .A f = .decided [0] 0 ∧
        s.activeBank.profiles[(0 : Fin 32)].disposition = .forward ∧ (s.elapse 48).isDuplicate .A f = false ∧
        rewriteFault (s.port (s.activeBank.profiles[(0 : Fin 32)].egress.port .A)).inForce.own
          (s.activeBank.newDst [0] f) (s.activeBank.newSrc [0] f) f.type = false ∧
        (∃ k ∈ [(0 : Fin 128)], ∃ m, s.activeBank.entries[k].meter = some m ∧
          s.meters[m].tokens < 7 + f.payload.length) ∧
        s.activeBank.profiles[(0 : Fin 32)].policy = policy ∧
        (s.port (s.activeBank.profiles[(0 : Fin 32)].egress.port .A)).inForce.queueLimit ≤
          s.dataAt (s.activeBank.profiles[(0 : Fin 32)].egress.port .A)) ∧
    (let s := received crowded f;
      s.EndsWalked 48 .A f ∧ s.activeBank.walk .A f = .decided [0] 0 ∧
        s.activeBank.profiles[(0 : Fin 32)].disposition = .forward ∧ (s.elapse 48).isDuplicate .A f = false ∧
        rewriteFault (s.port (s.activeBank.profiles[(0 : Fin 32)].egress.port .A)).inForce.own
          (s.activeBank.newDst [0] f) (s.activeBank.newSrc [0] f) f.type = false ∧
        (∀ k ∈ [(0 : Fin 128)], ∀ m, s.activeBank.entries[k].meter = some m →
          7 + f.payload.length ≤ s.meters[m].tokens) ∧
        (s.port (s.activeBank.profiles[(0 : Fin 32)].egress.port .A)).inForce.queueLimit ≤
          s.dataAt (s.activeBank.profiles[(0 : Fin 32)].egress.port .A)) := by decide +kernel

/-- A frame of 7 bytes for meter 15 with 7 tokens, and with 6 under DEMOTE, the egress queue with one slot short of its
limit. -/
theorem witness_TakenFrame :
    let f := dataFrame 12 11 3 []
    let portB := { crowded.portB with normal := crowded.portB.normal.drop 1 }
    let s : State := received { crowded with portB := portB } f
    let d : State := received { metered { forwards with policy := .demote } 6 with portB := portB } f
    (∀ x ∈ [s, d], x.EndsWalked 48 .A f ∧ x.activeBank.walk .A f = .decided [0] 0 ∧
      x.activeBank.profiles[(0 : Fin 32)].disposition = .forward ∧ (x.elapse 48).isDuplicate .A f = false ∧
      rewriteFault (x.port .B).inForce.own 12 11 f.type = false ∧
      x.dataCount < 30 ∧ x.dataCount + x.mgmtCount < 32 ∧ x.dataAt .B < (x.port .B).inForce.queueLimit) ∧
    (∀ k ∈ [(0 : Fin 128)], ∀ m, s.activeBank.entries[k].meter = some m →
      7 + f.payload.length ≤ s.meters[m].tokens) ∧
    (d.activeBank.profiles[(0 : Fin 32)].policy = .demote ∧
      ∃ k ∈ [(0 : Fin 128)], ∃ m, d.activeBank.entries[k].meter = some m ∧
        d.meters[m].tokens < 7 + f.payload.length) := by decide +kernel

/-- The longest payload; a broadcast; a reply. -/
theorem witness_SentFramesPassScreening :
    ∀ f ∈ [dataFrame 12 11 3 (List.replicate 240 7), dataFrame 255 254 15 [1], replyFrame .refuse 254 0 15],
      f.payload.length ≤ 240 ∧ f.src ≠ 255 ∧ f.src ≠ 224 ∧ (f.dst = 255 → f.type = .data) ∧
        (f.type = .ack ∨ f.type = .busy ∨ f.type = .refuse → f.payload = []) := by decide +kernel

theorem witness_ReceivedFrameIsKeptByteForByte :
    screen 224 (dataFrame 12 11 3 (List.replicate 20 7)).onLine 27 false =
      .good (dataFrame 12 11 3 (List.replicate 20 7)) := by decide +kernel

theorem witness_RuleEntryEncodesAndDecodes :
    (let e : RuleEntry :=
        { anyFrame with profile := 31, meter := some 15, dstRewrite := some 255, srcRewrite := .offset 254 };
      e.types ≠ ⟨false, false, false⟩ ∧ e.srcRewrite ≠ .fixed 255 ∧ e.srcRewrite ≠ .offset 0 ∧
        e.srcRewrite ≠ .offset 255) ∧
    (bytes [192, 7, 0, 0, 0, 0, 255, 31, 255, 0, 9, 9]).length = 12 ∧
    decodeRule (bytes [192, 7, 0, 0, 0, 0, 255, 31, 255, 0, 9, 9]) = some { anyFrame with profile := 31 } := by
  decide +kernel

theorem witness_ProfileEncodesAndDecodes :
    (bytes [2, 18, 19, 7]).length = 4 ∧
      decodeProfile (bytes [2, 18, 19, 7]) = some ⟨.dropRefuse, .same, .asReceived, .demote, true, none⟩ := by
  decide +kernel

theorem witness_WorkedEncodings : (List.replicate 20 (0 : Byte)).length = 20 := by decide

/-- Port A receiving since time 0, waiting for idle time, owing a reply, or sending from time 0 a frame of 7 bytes with
no collision or one in byte 2: its own first byte, its second replaced, the end of its drive. -/
theorem witness_BytesAreAssembled :
    let held (h : Bool) : State :=
      { State.reset with portA := { State.reset.portA with rx := { State.reset.portA.rx with holdOff := h } } }
    let sends := holding (.sending 12 0) (.data (dataSlot (dataFrame 12 11 9 [])))
    let owes := replyingAt (.oweReply ⟨.ack, 107, 12, 3⟩)
    let replies := replyingAt (.replying ⟨.ack, 107, 12, 3⟩ 0)
    ((held false).driverEnable .A = false ∧ ((held false).port .A).rx.state = .idle ∧
      ((held false).port .A).rx.holdOff = false) ∧
    ((held true).driverEnable .A = false ∧ ((held true).port .A).rx.state = .idle ∧
      3 * (held true).bitTime .A ≤ (held true).clock + 48 - ((held true).port .A).idleSince) ∧
    (owes.driverEnable .A = false ∧ (owes.port .A).rx.state = .oweReply ⟨.ack, 107, 12, 3⟩ ∧
      owes.clock + 159 - (owes.port .A).idleSince < 10 * owes.bitTime .A) ∧
    ((replyingAt .receiving).driverEnable .A = false ∧ ((replyingAt .receiving).port .A).rx.state = .receiving ∧
      (replyingAt .receiving).clock + 48 - ((replyingAt .receiving).port .A).idleSince ≤
        3 * (replyingAt .receiving).bitTime .A) ∧
    (((held true).port .A).rx.state = .idle ∧ ((held true).port .A).rx.holdOff = true ∧
      (held true).clock + 47 - ((held true).port .A).idleSince < 3 * (held true).bitTime .A) ∧
    ((sends.port .A).tx.state = .sending 12 0 ∧ (replies.port .A).tx.state.isSending = false ∧
      (replies.port .A).rx.state = .replying ⟨.ack, 107, 12, 3⟩ 0 ∧ (sends.driven .A).length = 7 ∧
      (sends.port .A).clash = none ∧ ((clashed 2 sends).port .A).clash = some 2) ∧
    (sends.clock + 1119 < 0 + 7 * (10 * sends.bitTime .A) ∧ 0 + 7 * (10 * sends.bitTime .A) ≤ sends.clock + 1120) ∧
    (sends.clock + 319 < 0 + 2 * (10 * sends.bitTime .A) ∧ 0 + 2 * (10 * sends.bitTime .A) ≤ sends.clock + 320) ∧
    ((sends.clock + 0 - 0) % (10 * sends.bitTime .A) = 0 ∧ (sends.driven .A)[0]? = some 12 ∧
      (sends.clock + 160 - 0) / (10 * sends.bitTime .A) + 1 = 2 ∧ (sends.driven .A)[1]? ≠ some 12) := by decide +kernel

/-- The bytes of a frame with a kind byte and a class byte, its check right. -/
def rawFrame (dst src kind cls len : Byte) (payload : List Byte) : List Byte :=
  (dst :: src :: kind :: cls :: len :: payload) ++ checkBytes (dst :: src :: kind :: cls :: len :: payload)

/-- Lengths 6 and 248; a wrong check; a wrong length field, and one above 240; types 0 and 7, class 8, a MGMT
broadcast, an ACK with a payload; the sources 255 and own; and a frame end that fails at port A. -/
theorem witness_FirstFailedTestIsCounted :
    (6 < 7 ∧ 247 < 248) ∧ checkBytes [1, 2, 32, 0, 0] ≠ [0, 0] ∧
    (∀ b ∈ [rawFrame 1 2 32 0 1 [], rawFrame 1 2 32 0 241 [], rawFrame 1 2 0 0 0 [], rawFrame 1 2 224 0 0 [],
        rawFrame 1 2 32 8 0 [], rawFrame 255 2 64 0 0 [], rawFrame 1 2 96 0 1 [5], rawFrame 1 255 32 7 0 [],
        rawFrame 1 224 32 7 0 []],
      b.length ≤ 247 ∧ checkBytes (b.take (b.length - 2)) = b.drop (b.length - 2)) ∧
    (([] : List Byte).length ≠ (1 : Byte).toNat ∧ 240 < (241 : Byte).toNat ∧ (0 : Byte).toNat / 32 = 0 ∧
      (224 : Byte).toNat / 32 = 7 ∧ 8 ≤ (8 : Byte).toNat ∧ (64 : Byte).toNat / 32 ≠ 1 ∧ (96 : Byte).toNat / 32 = 3) ∧
    (let s := received .reset (dataFrame 12 224 3 []);
      s.Ends 48 .A ∧ s.screened .A = .failed .addressConflict ∧ (s.port .A).tx.state.isAwaiting = false) := by
  decide +kernel

theorem witness_FrameEndRaisesOneScreeningCounter :
    ∃ t, (received busy (dataFrame 12 11 3 [])).Ends 48 .A ∧
      ((received busy (dataFrame 12 11 3 [])).port .A).tx.pos.all (fun x => !x.hasTrigger) = true ∧
      (∀ c, ((received busy (dataFrame 12 11 3 [])).rxCount .A c).toNat < 4294967295) ∧
      exec (.frameEnd 48 .A) (received busy (dataFrame 12 11 3 [])) = .next t :=
  ⟨_, by decide +kernel, by decide +kernel, by intro c; cases c <;> decide +kernel, rfl⟩

/-- The busy limit of 4 is met at the fifth BUSY; a forwarded frame that asks for a notice, and a response. -/
theorem witness_AwaitedReplySettlesTheFrame :
    let d : Slot := .data { dataSlot (dataFrame 12 11 9 []) with notify := true }
    let m : Slot := .mgmt (response .none)
    let s (x : Slot) (n : Nat) (t : FrameType) : State :=
      let h := holding (.awaitReply 40) x
      answered { h with portA := { h.portA with tx := { h.portA.tx with busies := n } } }
        { replyFrame t 0 0 0 with dst := x.frame.src, src := x.frame.dst, seq := x.frame.seq }
    (∀ x ∈ [d, m], x.marked = false ∧ x.hasTrigger = false ∧
      ∀ y ∈ [(0, FrameType.ack), (3, .busy), (4, .busy), (0, .refuse)],
        let f : Frame := { replyFrame y.2 0 0 0 with dst := x.frame.src, src := x.frame.dst, seq := x.frame.seq };
        (s x y.1 y.2).Ends 48 .A ∧ (s x y.1 y.2).screened .A = .good f ∧
          ((s x y.1 y.2).port .A).rx.inWait = true ∧ ((s x y.1 y.2).port .A).tx.state = .awaitReply 40 ∧
          ((s x y.1 y.2).port .A).tx.pos = some x ∧ f.Answers x.frame ∧ f.type = y.2) ∧
    ((s d 3 .busy).port .A).tx.busies < ((s d 3 .busy).port .A).params.busyLimit ∧
    ((s d 4 .busy).port .A).params.busyLimit ≤ ((s d 4 .busy).port .A).tx.busies := by decide +kernel

theorem witness_StrayRepliesAndOwnData :
    let own := replyFrame .ack 224 11 3
    let last := replyFrame .busy 12 11 3
    let s : State := received (replyingAt .receiving) last
    let t : State := { s with portA := { s.portA with rx := { s.portA.rx with lastSent := some 12 } } }
    let data := dataFrame 224 11 3 []
    ((received .reset own).EndsGood 48 .A own ∧ own.dst = (State.reset.port .A).inForce.own) ∧
    (t.EndsGood 48 .A last ∧ (t.port .A).rx.lastSent = some last.dst) ∧
    (s.EndsGood 48 .A last ∧ last.dst ≠ (s.port .A).inForce.own ∧ (s.port .A).rx.lastSent ≠ some last.dst) ∧
    ((received .reset data).EndsGood 48 .A data ∧ data.dst = (State.reset.port .A).inForce.own ∧
      data.type = .data) := by decide +kernel

/-- A request of the writer with tag 9 for port A. -/
def asking : Frame := requestFrame 1 [9, 17]

/-- Its ends: a line duplicate, a repeat of the pending tag, a refusal with 4 requests queued, and taken with 3
queued. -/
theorem witness_IntakeTakesRequests :
    let seen : State :=
      { managed with portA := { managed.portA with rx := { managed.portA.rx with
          filter := managed.portA.rx.filter.set 1 (some ⟨0, 0⟩) } } }
    let pend : State := { managed with managers := [replayer] }
    let full (n : Nat) : State := { managed with agentQueue := List.replicate n (request 1 [8, 17]) }
    asking.type = .mgmt ∧ asking.dst = (managed.port .A).inForce.own ∧
    ((received seen asking).EndsGood 48 .A asking ∧ ((received seen asking).elapse 48).isDuplicate .A asking = true) ∧
    ((received pend asking).EndsGood 48 .A asking ∧ ((received pend asking).elapse 48).isDuplicate .A asking = false ∧
      (received pend asking).manager .A asking.src = some replayer ∧ (9 : Byte) ≠ 0 ∧
      replayer.pendingTag = some 9) ∧
    (∀ n ∈ [3, 4], (received (full n) asking).EndsGood 48 .A asking ∧
      ((received (full n) asking).elapse 48).isDuplicate .A asking = false ∧
      (received (full n) asking).manager .A asking.src = some ⟨.A, 1, .write, none, none⟩) ∧
    4 ≤ (received (full 4) asking).agentQueue.length ∧
    ((received (full 3) asking).dataCount + (received (full 3) asking).mgmtCount < 32 ∧
      (received (full 3) asking).mgmtCount < 6 ∧ (received (full 3) asking).agentQueue.length < 4 ∧
      (received (full 3) asking).restartPending = 0) := by decide +kernel

/-- The gap just reached and just not; the reply just sent; a collision in its first and in its last byte. -/
theorem witness_RepliesAreSentOnceOrLost :
    let owed := replyingAt (.oweReply ⟨.ack, 107, 12, 3⟩)
    let sent := replyingAt (.replying ⟨.ack, 107, 12, 3⟩ 0)
    ((owed.port .A).rx.state = .oweReply ⟨.ack, 107, 12, 3⟩ ∧
      10 * owed.bitTime .A ≤ owed.clock + 160 - owed.lineEnd .A ∧
      (owed.port .A).tx.state.isSending = false) ∧
    ((sent.port .A).rx.state = .replying ⟨.ack, 107, 12, 3⟩ 0 ∧ (sent.port .A).clash = none ∧
      0 + 70 * sent.bitTime .A ≤ sent.clock + 1120) ∧
    (∀ k ∈ [1, 7], ((clashed k sent).port .A).rx.state = .replying ⟨.ack, 107, 12, 3⟩ 0 ∧
      ((clashed k sent).port .A).clash = some k ∧ 0 + k * 10 * sent.bitTime .A ≤ sent.clock + k * 160) ∧
    owed.clock + 159 - owed.lineEnd .A < 10 * owed.bitTime .A := by decide +kernel

/-- The head of the urgent queue, and of the normal queue when the urgent one is empty; a slot exactly as old as
the age limit; just short of the gap, and just at it. -/
theorem witness_SelectionTakesTheHead :
    let x : Slot := .data (dataSlot (dataFrame 12 11 9 []))
    let u : State := { queued x with portA := { (queued x).portA with urgent := [.data (dataSlot (dataFrame 255 11 9 []))] } }
    let n : State := { queued x with portA := { (queued x).portA with idleSince := 1000000 } }
    ((u.port .A).tx.state = .idle ∧ (u.port .A).rx.state = .idle ∧
      (u.port .A).urgent = .data (dataSlot (dataFrame 255 11 9 [])) :: [] ∧ (u.port .A).normal = [x] ∧
      u.clock + 0 - (u.port .A).idleSince < (u.port .A).params.normalGap * u.bitTime .A) ∧
    ((n.port .A).tx.state = .idle ∧ (n.port .A).rx.state = .idle ∧ (n.port .A).urgent = [] ∧
      (n.port .A).normal = x :: [] ∧ (n.clock + 1000000) / 1000 - 0 ≤ (n.port .A).params.ageLimit ∧
      n.clock + 1000000 - (n.port .A).idleSince < (n.port .A).params.normalGap * n.bitTime .A) ∧
    ((queued x).clock + 1151 - ((queued x).port .A).idleSince < ((queued x).port .A).params.normalGap * 16 ∧
      ((queued x).port .A).params.normalGap * (queued x).bitTime .A ≤
        (queued x).clock + 1152 - ((queued x).port .A).idleSince ∧ ((queued x).port .A).rx.state = .idle) := by
  decide +kernel

/-- The gap of 72 bt is reached at 1152 microseconds; the same while a reply is owed, and while one is sent; the first and
last bits of the frame, and the time after. -/
theorem witness_WaitsEndInDeferAndSending :
    let x : Slot := .data (dataSlot (dataFrame 12 11 9 []))
    let b := holding (.backoff 256) x
    let h := holding (.busyHold 1) x
    let d := holding (.defer 72 0 100) x
    (b.port .A).tx.pos = some x ∧ x.marked = false ∧ x.frame.urgent = false ∧ (b.port .A).params.normalGap = 72 ∧
    ((b.port .A).tx.state = .backoff 256 ∧ 256 ≤ b.clock + 256 ∧
      b.clock + 256 - (b.port .A).idleSince < 72 * b.bitTime .A) ∧
    (256 ≤ b.clock + 1152 ∧ 72 * b.bitTime .A ≤ b.clock + 1152 - (b.port .A).idleSince ∧
      (b.port .A).rx.state = .idle) ∧
    ((h.port .A).tx.pos = some x ∧ (h.port .A).tx.state = .busyHold 1 ∧ 1 ≤ (h.clock + 1000) / 1000 ∧
      h.clock + 1000 - (h.port .A).idleSince < 72 * h.bitTime .A) ∧
    (1 ≤ (h.clock + 1152) / 1000 ∧ 72 * h.bitTime .A ≤ h.clock + 1152 - (h.port .A).idleSince ∧
      (h.port .A).rx.state = .idle) ∧
    (∀ st ∈ [TxState.backoff 256, .busyHold 1], ∀ r ∈ [RxState.receiving, .oweReply ⟨.ack, 107, 12, 3⟩,
        .replying ⟨.ack, 107, 12, 3⟩ 160],
      let u : State := { replyingAt r with portA := { (replyingAt r).portA with tx := (holding st x).portA.tx } }
      (u.port .A).tx.state = st ∧ (u.port .A).tx.pos = some x ∧ (u.port .A).rx.state ≠ .idle ∧
        72 * u.bitTime .A ≤ u.clock + 1152 - (u.port .A).idleSince) ∧
    ((d.port .A).tx.pos = some x ∧ (d.port .A).tx.state = .defer 72 0 100 ∧
      72 * d.bitTime .A ≤ d.clock + 1152 - (d.port .A).idleSince ∧ (d.port .A).rx.state = .idle) ∧
    (x.frame.onLine[0 / d.bitTime .A / 10]? = some 12 ∧ x.frame.onLine[1119 / d.bitTime .A / 10]?.isSome = true ∧
      (7 + x.frame.payload.length) * 10 ≤ 1120 / d.bitTime .A ∧ d.driverEnable .A = false) := by decide +kernel

theorem witness_SendCompletes :
    let d (dst : Nat) : Slot := .data (dataSlot (dataFrame dst 11 9 []))
    let m : Slot := .mgmt { response .none with frame := { (response .none).frame with payload := [] } }
    (∀ x ∈ [d 12, d 255, m], ((holding (.sending 12 0) x).port .A).tx.state = .sending 12 0 ∧
      ((holding (.sending 12 0) x).port .A).tx.pos = some x ∧ x.marked = false ∧ x.hasTrigger = false ∧
      ((holding (.sending 12 0) x).port .A).clash = none ∧
      0 + (7 + x.frame.payload.length) * 10 * (holding (.sending 12 0) x).bitTime .A ≤
        (holding (.sending 12 0) x).clock + 1120) ∧
    (d 12).frame.dst ≠ 255 ∧ m.frame.dst ≠ 255 ∧ (d 255).frame.dst = 255 ∧
    ((clashed 3 (holding (.sending 12 0) m)).port .A).clash ≠ none := by decide +kernel

/-- Bytes 12 and 13 of a frame of 13 bytes, with 0, 6 and 7 attempts made, of a forwarded frame and of a response; and
own address 224 with a ladder of zeros, before and at the gap of 72 bt after byte 1. -/
theorem witness_CollisionBacksOffOrEnds :
    let d : Slot := .data { dataSlot (dataFrame 12 11 9 [1, 2, 3, 4, 5, 6]) with notify := true }
    let m : Slot := .mgmt { response .none with
      frame := { (response .none).frame with payload := bytes [9, 18, 0, 2, 0, 0] } }
    let s (x : Slot) (n k : Nat) : State :=
      let h := holding (.sending 12 0) x
      clashed k { h with portA := { h.portA with tx := { h.portA.tx with attempts := n } } }
    let zero : State :=
      let t := s d 0 1
      { t with portA := { t.portA with params := { t.portA.params with ladder := Vector.replicate 8 0 } } }
    (∀ x ∈ [d, m], x.marked = false ∧ x.hasTrigger = false ∧ ∀ n ∈ [0, 6, 7], ∀ k ∈ [1, 12, 13],
      ((s x n k).port .A).tx.state = .sending 12 0 ∧ ((s x n k).port .A).tx.pos = some x ∧
        ((s x n k).port .A).clash = some k ∧
        0 + k * 10 * (s x n k).bitTime .A ≤ (s x n k).clock + k * 160) ∧
    (6 + 1 < ((s d 6 1).port .A).params.retryLimit + 1 ∧
      0 < (((s d 6 1).port .A).params.ladder.toList.getD (min 7 8 - 1) 0).toNat +
        ((s d 6 1).port .A).inForce.own.toNat % 8) ∧
    ((zero.port .A).tx.state = .sending 12 0 ∧ (zero.port .A).tx.pos = some d ∧ (zero.port .A).clash = some 1 ∧
      ((zero.port .A).params.ladder.toList.getD (min 1 8 - 1) 0).toNat + (zero.port .A).inForce.own.toNat % 8 = 0 ∧
      (zero.port .A).params.normalGap = 72 ∧ (zero.port .A).rx.state = .idle ∧
      zero.clock + 1311 - max (zero.port .A).idleSince 160 < 72 * zero.bitTime .A ∧
      72 * zero.bitTime .A ≤ zero.clock + 1312 - max (zero.port .A).idleSince 160) ∧
    ((s d 7 1).port .A).params.retryLimit + 1 ≤ 7 + 1 := by decide +kernel

/-- A wait of 40 bt that ends by idle time, by a frame that fails screening, by a good frame to another station and by
a reply with another sequence; attempts left and none left; a backoff of 0, before and after the gap of 72 bt. -/
theorem witness_NoReplyIsRetried :
    let x : Slot := .data (dataSlot (dataFrame 12 11 9 []))
    let m : Slot := .mgmt (response .none)
    let s (x : Slot) (n : Nat) : State :=
      let h := holding (.awaitReply 40) x
      { h with portA := { h.portA with tx := { h.portA.tx with attempts := n } } }
    let zero : State :=
      { s x 0 with
        portA := { (s x 0).portA with params := { (s x 0).portA.params with ladder := Vector.replicate 8 0 } } }
    (∀ y ∈ [x, m], ∀ n ∈ [0, 6, 7], y.marked = false ∧ y.hasTrigger = false ∧
      ((s y n).port .A).tx.state = .awaitReply 40 ∧ ((s y n).port .A).tx.pos = some y ∧
      40 * (s y n).bitTime .A ≤ (s y n).clock + 640 - ((s y n).port .A).idleSince ∧
      ((s y n).port .A).rx.state = .idle) ∧
    (6 + 1 < ((s x 6).port .A).params.retryLimit + 1 ∧ ¬7 + 1 < ((s x 7).port .A).params.retryLimit + 1) ∧
    0 < (((s x 0).port .A).params.ladder.toList.getD (min 1 8 - 1) 0).toNat + ((s x 0).port .A).inForce.own.toNat % 8 ∧
    ((zero.port .A).tx.state = .awaitReply 40 ∧ (zero.port .A).tx.pos = some x ∧
      ((zero.port .A).params.ladder.toList.getD (min 1 8 - 1) 0).toNat + (zero.port .A).inForce.own.toNat % 8 = 0 ∧
      zero.clock + 640 - (zero.port .A).idleSince < 72 * zero.bitTime .A ∧
      72 * zero.bitTime .A ≤ zero.clock + 1152 - (zero.port .A).idleSince) ∧
    (∀ n ∈ [0, 7], ∀ f ∈ [dataFrame 12 224 3 [], dataFrame 7 8 3 [1], replyFrame .ack 11 12 8],
      (answered (s x n) f).Ends 48 .A ∧ ((answered (s x n) f).port .A).rx.inWait = true ∧
        ((answered (s x n) f).port .A).tx.pos = some x ∧ ¬f.Answers x.frame) ∧
    (answered (s x 0) (dataFrame 12 224 3 [])).screened .A = .failed .addressConflict ∧
    (answered (s x 0) (dataFrame 7 8 3 [1])).screened .A = .good (dataFrame 7 8 3 [1]) ∧
    (answered (s x 0) (replyFrame .ack 11 12 8)).screened .A = .good (replyFrame .ack 11 12 8) := by decide +kernel

/-- Just over the defer limit; the ingress port with 23 of its 24 slots, and full; a frame that asks for none, and a
response; a head of either queue 1 ms older than the age limit. -/
theorem witness_FailedFrameMakesANotice :
    let d (n : Bool) : DataSlot := { dataSlot (dataFrame 12 11 9 []) with notify := n }
    let m : Slot := .mgmt (response .none)
    let s (x : Slot) (k : Nat) : State :=
      { holding (.defer 72 0 100) x with
        portB := { State.reset.portB with normal := List.replicate k (.data (d true)) } }
    let head (urgent : Bool) : State :=
      { State.reset with portA := { State.reset.portA with
          urgent := if urgent then [.data (d true)] else [], normal := [.data (d true)] } }
    (∀ x ∈ [Slot.data (d true), .data (d false), m], ∀ k ∈ [23, 24], ((s x k).port .A).tx.state = .defer 72 0 100 ∧
      ((s x k).port .A).tx.pos = some x ∧ x.marked = false ∧ x.hasTrigger = false ∧ (100 : Nat) ≠ 0 ∧
      100 < ((s x k).clock + 101000) / 1000 - 0 ∧ (s x k).fence = none) ∧
    (∀ u ∈ [true, false], ((head u).port .A).tx.state = .idle ∧ ((head u).port .A).rx.state = .idle ∧
      ((head u).port .A).urgent = (if u then [Slot.data (d true)] else []) ∧
      ((head u).port .A).normal = [.data (d true)] ∧ ((head u).port .A).params.ageLimit ≠ 0 ∧
      ((head u).port .A).params.ageLimit < ((head u).clock + 1001000) / 1000 - (d true).arrival) ∧
    ((d true).kind = .forward ∧ (d true).notify = true ∧ (d true).origDst ≠ 255 ∧
      (d true).frame.type ≠ .undelivered) ∧
    (s (.data (d true)) 23).dataAt (d true).ingress < ((s (.data (d true)) 23).port .B).inForce.queueLimit + 0 ∧
    ((s (.data (d true)) 24).port .B).inForce.queueLimit + 0 ≤ (s (.data (d true)) 24).dataAt (d true).ingress ∧
    ¬(d false).notify = true := by decide +kernel

theorem witness_MarkedFrameEndsFenced :
    let d : DataSlot := { dataSlot (dataFrame 12 11 9 [1, 2, 3, 4, 5, 6]) with mark := true }
    let h := holding (.sending 12 0) (.data d)
    d.mark = true ∧
    (∀ st ∈ [TxState.defer 72 0 100, .backoff 5, .busyHold 5, .awaitReply 40, .sending 12 0],
      ((holding st (.data d)).port .A).tx.state = st ∧ ((holding st (.data d)).port .A).tx.pos = some (.data d)) ∧
    ((h.port .A).clash = none ∧ 0 + (7 + d.frame.payload.length) * 10 * h.bitTime .A ≤ h.clock + 2080) ∧
    (∀ k ∈ [12, 13], ((clashed k h).port .A).clash = some k ∧ ((clashed k h).port .A).tx.pos = some (.data d) ∧
      0 + k * 10 * h.bitTime .A ≤ h.clock + k * 160) := by decide +kernel

/-- `busy`, with its old slot a broadcast that is sent, and one more old slot queued or none. -/
theorem witness_LastOldSlotEndsTheFence :
    let d := dataSlot (dataFrame 255 11 0 [])
    let s (more : List Slot) : State :=
      { busy with portA := { busy.portA with
          normal := more, tx := { busy.portA.tx with state := .sending 12 0, pos := some (.data d) } } }
    (∀ more ∈ [[], [Slot.data d]], ((s more).port .A).tx.state = .sending 12 0 ∧
      ((s more).port .A).tx.pos = some (.data d) ∧ d.mark = false ∧ ((s more).port .A).clash = none ∧
      d.frame.dst = 255 ∧
      0 + (7 + d.frame.payload.length) * 10 * (s more).bitTime .A ≤ (s more).clock + 1120 ∧
      (s more).fence = some ⟨500, request 1 [17, 7, 1, 0, 0]⟩ ∧ d.epoch ≠ (s more).commitCount) ∧
    (request 1 [17, 7, 1, 0, 0]).frame.payload = 17 :: 7 :: [1, 0, 0] ∧ (s []).oldCount = 1 ∧
    1 < (s [.data d]).oldCount := by decide +kernel

theorem witness_FenceTimesOut :
    busy.fence = some ⟨500, request 1 [17, 7, 1, 0, 0]⟩ ∧ 500 ≤ (busy.clock + 500000) / 1000 ∧
      (request 1 [17, 7, 1, 0, 0]).frame.payload = 17 :: 7 :: [1, 0, 0] := by decide +kernel

theorem witness_MetersRefillAndLeasesLapse :
    State.reset.meters[(15 : Fin 16)].start + State.reset.meters[(15 : Fin 16)].interval ≤
        (State.reset.clock + 100000) / 1000 ∧
      busy.session = some ⟨.A, 1, 30, 30000⟩ ∧ 30000 ≤ (busy.clock + 30000000) / 1000 := by decide +kernel

/-- Port A with a response that carries a trigger in its position, no attempt and no busy hold left. -/
def lastChance (t : Trigger) (st : TxState) : State :=
  let s := holding st (.mgmt (response t))
  { s with portA := { s.portA with tx := { s.portA.tx with attempts := 7, busies := 4 } } }

/-- `lastChance` in its reply wait, at the end of frame `f`. -/
def lastWait (t : Trigger) (f : Frame) : State := answered (lastChance t (.awaitReply 40)) f

/-- Every terminal outcome of such a response: its defer limit exceeded, a collision in the last byte of the window
and in the first beyond it, no reply, the end of a frame that is no reply, and the three replies. -/
abbrev Outcomes (t : Trigger) : Prop :=
  let m := response t
  (lastChance t (.defer 72 0 100)).ResponseEnds .A m (.deferExhausted 101000 .A) [] [.deferExhausted] ∧
  (clashed 12 (lastChance t (.sending 12 0))).ResponseEnds .A m (.collision 1920 .A 12) []
    [.collisions, .retryExhausted] ∧
  (clashed 13 (lastChance t (.sending 12 0))).ResponseEnds .A m (.collision 2080 .A 13) [] [.lateCollision] ∧
  (lastChance t (.awaitReply 40)).ResponseEnds .A m (.noReply 640 .A) [] [.noReply, .retryExhausted] ∧
  (lastWait t (dataFrame 12 11 3 [])).ResponseEnds .A m (.frameEnd 48 .A) [] [.noReply, .retryExhausted] ∧
  (lastWait t (replyFrame .ack 224 1 0)).ResponseEnds .A m (.frameEnd 48 .A) [.rxGood] [.delivered] ∧
  (lastWait t (replyFrame .busy 224 1 0)).ResponseEnds .A m (.frameEnd 48 .A) [.rxGood]
    [.busyReceived, .busyExhausted] ∧
  (lastWait t (replyFrame .refuse 224 1 0)).ResponseEnds .A m (.frameEnd 48 .A) [.rxGood] [.refusedReceived]

/-- The facts of these states that the outcomes rest on. -/
theorem lastChance_facts :
    ∀ t ∈ [Trigger.restart, .restartPort .A, .restartPort .B],
      (∀ st ∈ [TxState.defer 72 0 100, .sending 12 0, .awaitReply 40],
        ((lastChance t st).port .A).tx.pos = some (.mgmt (response t)) ∧ ((lastChance t st).port .A).tx.state = st) ∧
      (∀ f ∈ [dataFrame 12 11 3 [], replyFrame .ack 224 1 0, replyFrame .busy 224 1 0, replyFrame .refuse 224 1 0],
        (lastWait t f).Ends 48 .A ∧ ((lastWait t f).port .A).rx.inWait = true ∧
        ((lastWait t f).port .A).tx.pos = some (.mgmt (response t)) ∧
        ((lastWait t f).port .A).tx.state = .awaitReply 40 ∧ (lastWait t f).screened .A = .good f) ∧
      (¬(dataFrame 12 11 3 []).Answers (response t).frame ∧
        ∀ k ∈ [FrameType.ack, .busy, .refuse], (replyFrame k 224 1 0).Answers (response t).frame) ∧
      (∀ k ∈ [12, 13], let s := clashed k (lastChance t (.sending 12 0))
        0 + k * 10 * s.bitTime .A ≤ s.clock + k * 160) ∧
      let s := lastChance t (.awaitReply 40)
      40 * s.bitTime .A ≤ s.clock + 640 - s.lineEnd .A ∧
        100 < ((lastChance t (.defer 72 0 100)).clock + 101000) / 1000 - 0 := by
  decide +kernel

theorem everyOutcome {t : Trigger} (ht : t ∈ [Trigger.restart, .restartPort .A, .restartPort .B]) : Outcomes t := by
  obtain ⟨hs, hf, ⟨hd, hr⟩, hk, hw, hl⟩ := lastChance_facts t ht
  simp only [List.mem_cons, List.not_mem_nil, or_false, forall_eq_or_imp, forall_eq] at hs hf hr
  obtain ⟨⟨-, h1⟩, ⟨-, h2⟩, -, h3⟩ := hs
  obtain ⟨⟨d1, d2, -, d3, d4⟩, ⟨a1, a2, -, a3, a4⟩, ⟨b1, b2, -, b3, b4⟩, r1, r2, -, r3, r4⟩ := hf
  have le : ∀ {a b : Nat}, Nat.ble a b = true → a ≤ b := Nat.le_of_ble_eq_true
  exact ⟨.deferExhausted _ _ _ _ h1 (by decide) hl,
    .lastCollision _ _ _ _ h2 rfl (hk 12 (by decide)) (by decide) (le rfl),
    .lateCollision _ _ _ _ h2 rfl (hk 13 (by decide)) (by decide),
    .noReply _ _ h3 hw (fun h => nomatch h.1) (le rfl),
    .otherFrame _ _ d1 d2 d3 (fun f h => by rw [d4] at h; cases h; exact hd) (le rfl),
    .delivered _ _ _ a1 a2 a3 a4 hr.1 rfl,
    .busyExhausted _ _ _ b1 b2 b3 b4 hr.2.1 rfl (le rfl),
    .refused _ _ _ r1 r2 r3 r4 hr.2.2 rfl⟩

/-- Both ports, every outcome; and a fence whose last old slot the restarted port queues, alone or beside one of the
other port. -/
theorem witness_PortRestartFollowsItsResponse :
    (∀ q, Outcomes (.restartPort q) ∧ (response (.restartPort q)).trigger = .restartPort q) ∧
    let old : Slot := .data (dataSlot (dataFrame 12 11 9 []))
    let fenced (q : Port) (here there : List Slot) : State :=
      { (lastChance (.restartPort q) (.awaitReply 40)).modPort q fun x => { x with normal := here } with
        commitCount := 1
        fence := some ⟨500, request 1 [17, 7, 1, 0, 0]⟩ }.modPort q.other fun x => { x with urgent := there }
    ∀ q ∈ [Port.A, .B], ∀ there ∈ [[], [old]],
      let s := fenced q [old] there
      (s.port .A).tx.pos = some (.mgmt (response (.restartPort q))) ∧ (s.port .A).tx.state = .awaitReply 40 ∧
        (s.port q).normal = [old] ∧ (s.port q.other).urgent = there ∧ s.fence.isSome = true ∧
        s.commitCount ≠ (dataSlot (dataFrame 12 11 9 [])).epoch := by
  refine ⟨fun q => ⟨everyOutcome (by cases q <;> decide), rfl⟩, ?_⟩
  decide +kernel

theorem witness_SoftRestartFollowsItsResponse : Outcomes .restart ∧ (response .restart).trigger = .restart :=
  ⟨everyOutcome (by decide), rfl⟩

/-! ### Witnesses of the management statements: a fresh request of the writer at the head of the queue -/

/-- What each of them asks of its request: its place and payload, that it is no replay, the requester's right. -/
abbrev Asked (s : State) (tag code : Nat) (args : List Nat) : Prop :=
  s.Heads (request 1 (tag :: code :: args)) (BitVec.ofNat 8 tag) (BitVec.ofNat 8 code) (bytes args) ∧
    s.Fresh (request 1 (tag :: code :: args)) (BitVec.ofNat 8 tag) ∧
    s.rightOf (request 1 (tag :: code :: args)) = some .write

theorem witness_IdentifyReports : Asked (asked [9, 1]) 9 1 [] := by decide +kernel

/-- Each run at the end of its table and one past it; the selectors' last value and the first beyond. -/
theorem witness_ReadsReturnWhatStands :
    (∀ x ∈ [[0, 120, 8], [1, 127, 1], [0, 121, 8], [0, 0, 9], [1, 0, 0], [2, 0, 1]], Asked (asked (9 :: 9 :: x)) 9 9 x) ∧
    (∀ x ∈ [[0, 16, 16], [1, 31, 1], [0, 17, 16], [0, 0, 17], [1, 0, 0], [2, 0, 1]], Asked (asked (9 :: 10 :: x)) 9 10 x) ∧
    (∀ x ∈ [[0], [1], [2]], Asked (asked (9 :: 15 :: x)) 9 15 x) ∧ Asked (asked [9, 17]) 9 17 [] := by decide +kernel

theorem witness_ReadMeterReturnsTheRun :
    ∀ x ∈ [[0, 16], [15, 1], [1, 16], [0, 17], [15, 0]], Asked (asked (9 :: 13 :: x)) 9 13 x := by decide +kernel

/-- Runs that end at the last entry and one past it, an empty one and one too long; an undefined selector, group and
flag. -/
theorem witness_CountsAreReadAndZeroed :
    (∀ x ∈ [[0, 80, 48, 0], [1, 127, 1, 1], [0, 81, 48, 0], [0, 0, 49, 1], [1, 0, 0, 0], [2, 0, 1, 0], [0, 0, 1, 2]],
      Asked (asked (9 :: 11 :: x)) 9 11 x) ∧
    ∀ x ∈ [[0, 0], [1, 1], [2, 1], [3, 0], [4, 1], [5, 0], [0, 2]], Asked (asked (9 :: 16 :: x)) 9 16 x := by decide +kernel

/-- The writer with station 2 of port B as a second writer, who may own the session. -/
def twoWriters (payload : List Nat) : State :=
  { asked payload with
    managers := [⟨.A, 1, .write, none, none⟩, ⟨.B, 2, .write, none, none⟩], session := some ⟨.B, 2, 30, 30000⟩ }

/-- Whether an entry of port `p` and address `a` is the only one that may write. -/
abbrev OnlyWriter (s : State) (p : Port) (a : Byte) : Prop :=
  (s.managers.all fun x => decide (x.right = .write → x.port = p ∧ x.addr = a)) = true

/-- The first manager, with arguments that are no port and no right; undefined arguments; a new entry at 5 and at 6
entries; an entry made READ, with another writer and with none. DISMISS has the theorem below: an entry that is absent,
one of a reader, of a writer beside another, and of the last writer. -/
theorem witness_ManagersAreEnrolledAndDismissed :
    let first : State := { State.reset with agentQueue := [request 1 [9, 2, 7, 255, 0]] }
    let table (n : Nat) : State :=
      { asked [9, 2, 1, 254, 1] with
        managers := (List.range n).map fun i => ⟨.A, BitVec.ofNat 8 (i + 1), .write, none, none⟩ }
    (first.Heads (request 1 [9, 2, 7, 255, 0]) 9 2 [7, 255, 0] ∧ first.Fresh (request 1 [9, 2, 7, 255, 0]) 9 ∧
      first.managers = []) ∧
    (∀ x ∈ [[2, 1, 1], [0, 255, 1], [0, 1, 0], [0, 1, 3]], Asked (asked (9 :: 2 :: x)) 9 2 x) ∧
    (∀ x ∈ [[2, 1], [0, 255]], Asked (asked (9 :: 3 :: x)) 9 3 x) ∧
    (∀ n ∈ [5, 6], Asked (table n) 9 2 [1, 254, 1] ∧ (254 : Byte) ≠ 255 ∧ (table n).manager .B 254 = none) ∧
    ((table 5).managers.length < 6 ∧ 6 ≤ (table 6).managers.length) ∧
    (Asked (asked [9, 2, 1, 2, 2]) 9 2 [1, 2, 2] ∧
      (asked [9, 2, 1, 2, 2]).manager .B 2 = some ⟨.B, 2, .read, none, none⟩) ∧
    (Asked (twoWriters [9, 2, 1, 2, 1]) 9 2 [1, 2, 1] ∧
      (twoWriters [9, 2, 1, 2, 1]).manager .B 2 = some ⟨.B, 2, .write, none, none⟩ ∧
      ¬OnlyWriter (twoWriters [9, 2, 1, 2, 1]) .B 2) ∧
    (Asked (asked [9, 2, 0, 1, 1]) 9 2 [0, 1, 1] ∧
      (asked [9, 2, 0, 1, 1]).manager .A 1 = some ⟨.A, 1, .write, none, none⟩ ∧ OnlyWriter (asked [9, 2, 0, 1, 1]) .A 1) := by
  decide +kernel

theorem witness_ManagersAreEnrolledAndDismissed_dismiss :
    (Asked (asked [9, 3, 1, 3]) 9 3 [1, 3] ∧ (asked [9, 3, 1, 3]).manager .B 3 = none) ∧
    (Asked (asked [9, 3, 1, 2]) 9 3 [1, 2] ∧
      (asked [9, 3, 1, 2]).manager .B 2 = some ⟨.B, 2, .read, none, none⟩) ∧
    (Asked (twoWriters [9, 3, 1, 2]) 9 3 [1, 2] ∧
      (twoWriters [9, 3, 1, 2]).manager .B 2 = some ⟨.B, 2, .write, none, none⟩ ∧
      ¬OnlyWriter (twoWriters [9, 3, 1, 2]) .B 2) ∧
    (Asked (asked [9, 3, 0, 1]) 9 3 [0, 1] ∧
      (asked [9, 3, 0, 1]).manager .A 1 = some ⟨.A, 1, .write, none, none⟩ ∧ OnlyWriter (asked [9, 3, 0, 1]) .A 1) := by
  decide +kernel

theorem witness_OpenEditOpensTheSession :
    let held : State := { asked [9, 4, 0, 2] with session := some ⟨.B, 2, 30, 30000⟩ }
    (∀ x ∈ [[0, 0], [1, 1], [120, 2]], Asked (asked (9 :: 4 :: x)) 9 4 x ∧ (asked (9 :: 4 :: x)).session = none) ∧
    (∀ x ∈ [[121, 0], [0, 3]], Asked (edited (9 :: 4 :: x)) 9 4 x) ∧ 120 < (121 : Byte).toNat ∧ 2 < (3 : Byte).toNat ∧
    (120 : Byte).toNat ≤ 120 ∧ (2 : Byte).toNat ≤ 2 ∧
    (Asked (edited [9, 4, 5, 0]) 9 4 [5, 0] ∧ (edited [9, 4, 5, 0]).ownsSession .A 1 = true) ∧
    (Asked held 9 4 [0, 2] ∧ held.session = some ⟨.B, 2, 30, 30000⟩ ∧ held.ownsSession .A 1 = false) := by
  decide +kernel

theorem witness_OwnerWritesTheStandbyBank :
    let rule := [192, 7, 0, 0, 0, 0, 255, 31, 255, 0, 0, 0]
    let profile := [0, 17, 3, 129]
    (∀ i ∈ [127, 128], Asked (edited (9 :: 5 :: i :: rule)) 9 5 (i :: rule) ∧
      (edited (9 :: 5 :: i :: rule)).ownsSession .A 1 = true) ∧ (bytes rule).length = 12 ∧
    (127 : Byte).toNat < 128 ∧ 128 ≤ (128 : Byte).toNat ∧ (decodeRule (bytes rule)).isSome = true ∧
    (Asked (edited (9 :: 5 :: 0 :: List.replicate 12 0)) 9 5 (0 :: List.replicate 12 0) ∧
      decodeRule (bytes (List.replicate 12 0)) = none) ∧
    (Asked (asked (9 :: 5 :: 0 :: rule)) 9 5 (0 :: rule) ∧ (asked (9 :: 5 :: 0 :: rule)).ownsSession .A 1 = false) ∧
    (∀ i ∈ [31, 32], Asked (edited (9 :: 6 :: i :: profile)) 9 6 (i :: profile) ∧
      (edited (9 :: 6 :: i :: profile)).ownsSession .A 1 = true) ∧ (bytes profile).length = 4 ∧
    (31 : Byte).toNat < 32 ∧ 32 ≤ (32 : Byte).toNat ∧ (decodeProfile (bytes profile)).isSome = true ∧
    (Asked (edited [9, 6, 0, 3, 0, 0, 0]) 9 6 [0, 3, 0, 0, 0] ∧ decodeProfile (bytes [3, 0, 0, 0]) = none) ∧
    (Asked (asked (9 :: 6 :: 0 :: profile)) 9 6 (0 :: profile) ∧
      (asked (9 :: 6 :: 0 :: profile)).ownsSession .A 1 = false) := by decide +kernel

/-- Timeouts 0, 10 and 5000 are valid, 9, 5001 and mode 2 are not. -/
theorem witness_CommitSwapsAndFences :
    let old (x : List Nat) : State := { edited (9 :: 7 :: x) with
      portB := { State.reset.portB with normal := [.data (dataSlot (dataFrame 12 11 9 []))] } }
    (Asked (asked [9, 7, 0, 0, 0]) 9 7 [0, 0, 0] ∧ (asked [9, 7, 0, 0, 0]).ownsSession .A 1 = false) ∧
    (let s : State := { busy with agentQueue := [request 1 [9, 7, 0, 0, 0]] };
      Asked s 9 7 [0, 0, 0] ∧ s.ownsSession .A 1 = true ∧ s.fence.isSome = true) ∧
    (∀ x ∈ [[0, 0, 0], [0, 0, 10], [1, 19, 136], [0, 0, 9], [1, 19, 137], [2, 0, 0]],
      Asked (old x) 9 7 x ∧ (old x).ownsSession .A 1 = true ∧ (old x).fence = none) ∧
    ((19 : Byte).toNat * 256 + (136 : Byte).toNat = 5000 ∧ (19 : Byte).toNat * 256 + (137 : Byte).toNat = 5001) ∧
    (∃ x ∈ ((old [1, 19, 136]).port .B).slots,
      (match x with | .data d => decide (d.epoch ≠ (old [1, 19, 136]).commitCount + 1) | .mgmt _ => false) = true) ∧
    (Asked (edited [9, 7, 1, 0, 0]) 9 7 [1, 0, 0] ∧ (edited [9, 7, 1, 0, 0]).fence = none ∧
      ((edited [9, 7, 1, 0, 0]).port .A).slots = [] ∧ ((edited [9, 7, 1, 0, 0]).port .B).slots = []) := by
  decide +kernel

theorem witness_AbandonEndsTheSession :
    (Asked (edited [9, 8]) 9 8 [] ∧ (edited [9, 8]).session = some ⟨.A, 1, 30, 30000⟩) ∧
      (Asked (asked [9, 8]) 9 8 [] ∧ (asked [9, 8]).session = none) := by decide +kernel

/-- Meters 15 and 16, intervals 0, 1, 1000 and 1001; blocks of a reply wait of 50 in the gaps' order, of 56 that
breaks it, of 15 out of its range; a queue limit of 30 and of 31; a mask with bit 14; an undefined port. -/
theorem witness_MetersAndPortsAreSet :
    (∀ x ∈ [[15, 1, 244, 0, 10, 0, 1], [15, 1, 244, 0, 10, 3, 232], [16, 1, 244, 0, 10, 0, 1],
        [15, 1, 244, 0, 10, 0, 0], [15, 1, 244, 0, 10, 3, 233]], Asked (asked (9 :: 12 :: x)) 9 12 x) ∧
    ((15 : Byte).toNat < 16 ∧ 16 ≤ (16 : Byte).toNat ∧ (3 : Byte).toNat * 256 + (232 : Byte).toNat = 1000) ∧
    (∀ x ∈ [[1, 0, 1, 50], [1, 0, 1, 56], [1, 0, 1, 15], [0, 64, 0, 0], [2, 0, 1, 50]],
      let args := x ++ List.replicate 23 0
      Asked (asked (9 :: 14 :: args)) 9 14 args ∧ (bytes (args.drop 3)).length = 24) ∧
    (∀ limit ∈ [30, 31],
      let args := [0, 32, 0] ++ List.replicate 23 0 ++ [limit]
      Asked (asked (9 :: 14 :: args)) 9 14 args ∧ (bytes (args.drop 3)).length = 24) ∧
    (16 ≤ 50 ∧ 50 < State.reset.portB.params.urgentGap ∧ State.reset.portB.params.urgentGap ≤ 56 ∧
      State.reset.portB.params.urgentGap < State.reset.portB.params.normalGap ∧
      (64 * 256 + 0).testBit 14 = true ∧ (32 * 256 + 0).testBit 13 = true ∧ (0 * 256 + 1).testBit 0 = true) := by
  decide +kernel

theorem witness_RestartCommandsSetTheirTrigger :
    (∀ x ∈ [[0], [1], [2]], Asked (asked (9 :: 18 :: x)) 9 18 x) ∧ Asked (asked [9, 19]) 9 19 [] := by decide +kernel

end Sys2Proof.Tests
end

section
/-! PROOF. When a rule entry matches a frame (R2, R10), read off its tests one by one. -/

namespace Sys2Proof.Machine

/-! ### The tests of a rule entry (R1, R2) -/

theorem MatchField.holds_iff (m : MatchField) (a : Byte) :
    m.holds a = true ↔ a &&& m.mask = m.value &&& m.mask := beq_iff_eq

theorem Ingress.covers_iff (g : Ingress) (p : Port) :
    g.covers p = true ↔ g = .either ∨ (g = .A ∧ p = .A) ∨ (g = .B ∧ p = .B) := by
  cases g <;> simp [Ingress.covers]

/-- A type set holds no reply type. -/
theorem TypeSet.has_iff (t : TypeSet) (ty : FrameType) :
    t.has ty = true ↔
      (ty = .data ∧ t.data = true) ∨ (ty = .mgmt ∧ t.mgmt = true) ∨ (ty = .undelivered ∧ t.undelivered = true) := by
  cases ty <;> simp [TypeSet.has]

theorem OneShot.ne_spent_iff (o : OneShot) : o ≠ .spent ↔ o = .none ∨ o = .armed := by
  cases o <;> decide

/-! ### The entry as a whole (R10) -/

theorem RuleEntry.matches_iff (e : RuleEntry) (p : Port) (f : Frame) :
    e.matches p f = true ↔
      e.valid = true ∧ e.ingress.covers p = true ∧ e.types.has f.type = true ∧ e.dst.holds f.dst = true ∧
        e.src.holds f.src = true ∧ e.classes.getLsbD f.cls.toNat = true ∧ e.oneShot ≠ .spent := by
  simp only [RuleEntry.matches, Bool.and_eq_true, decide_eq_true_eq, and_assoc]

/-- The tests look at nothing of a frame but its type, addresses and class. -/
theorem RuleEntry.matches_congr (e : RuleEntry) (p : Port) {f g : Frame} (htype : g.type = f.type)
    (hdst : g.dst = f.dst) (hsrc : g.src = f.src) (hcls : g.cls = f.cls) : e.matches p g = e.matches p f := by
  simp only [RuleEntry.matches, htype, hdst, hsrc, hcls]

/-- Settles O20: R10's conditions are the tests of `matches` one by one; the urgent bit, the sequence and the
payload are in none of them; a walk's step skips an entry that does not match. -/
theorem entryMatches : Obligations.EntryMatches := by
  refine ⟨fun e p f => ?conditions, fun e p f u q pl => ?independent, fun b p f i rest path h => ?skipped⟩
  case conditions =>
    rw [e.matches_iff p f, Ingress.covers_iff, TypeSet.has_iff, MatchField.holds_iff, MatchField.holds_iff,
      OneShot.ne_spent_iff]
  case independent => exact e.matches_congr p rfl rfl rfl rfl
  case skipped => exact Bank.walkFrom_skip h rest path

end Sys2Proof.Machine
end

section
/-! PROOF. The management commands at step 6 (R139) that read or end what stands: READ-METER (R163) and ABANDON
(R158). -/

namespace Sys2Proof.Machine

/-! ### The answer of a command at step 6 -/

theorem responseRecord_ok (tag code : Byte) (result : List Byte) :
    responseRecord tag code .ok result = okRecord tag code result := rfl

/-- R139: a command that step 6 carries out or refuses without a change of state only answers. -/
theorem State.agentRow_answers {s : State} {m : MgmtSlot} {tag code : Byte} {args : List Byte} {c : Command}
    {six : StepSix} {dt : Nat} {a : Answer} (hh : s.Heads m tag code args) (hc : Command.ofCode code = some c)
    (hf : s.Fresh m tag) (hr : s.rightOf m = some .write ∨ (s.rightOf m ≠ none ∧ c.needsWrite = false))
    (hl : args.length = c.argBytes)
    (hsix : six ((s.elapse dt).raiseAgent .requestsTaken) m args =
      ((s.elapse dt).raiseAgent .requestsTaken, some a)) :
    (s.elapse dt).agentRow (some c) six =
      s.answered dt m tag (responseRecord tag code a.status a.result) a.trigger := by
  rw [State.agentRow_ready six dt hh hc hf hr hl, hsix]
  simp only [State.answer_popped, MgmtSlot.tag_eq hh.2, MgmtSlot.code_eq hh.2]

/-- An answer neither reads nor moves the session. -/
theorem State.answer_session (s : State) (d : Option Session) (m : MgmtSlot) (st : Status) (result : List Byte)
    (t : Trigger) :
    ({ s with session := d } : State).popRequest.answer m st result t =
      { s.popRequest.answer m st result t with session := d } := by
  rw [State.answer_eq, State.answer_eq]
  cases m.port <;> rfl

/-! ### Runs of a table (R150) -/

theorem runValid_iff (first count most last : Nat) :
    runValid first count most last = true ↔ 1 ≤ count ∧ count ≤ most ∧ first + count ≤ last + 1 := by
  simp only [runValid, Bool.and_eq_true, decide_eq_true_eq, and_assoc]

theorem runOf_map {α β : Type} (f : α → β) (xs : List α) (first count : Nat) :
    runOf (xs.map f) first count = (runOf xs first count).map f := by
  simp only [runOf, List.map_drop, List.map_take]

theorem mem_runOf_finRange {n : Nat} (first count : Nat) (i : Fin n) :
    i ∈ runOf (List.finRange n) first count ↔ first ≤ i.val ∧ i.val < first + count := by
  simp only [runOf, List.mem_take_iff_getElem, List.getElem_drop, List.getElem_finRange, List.length_drop,
    List.length_finRange, Fin.ext_iff, Fin.val_cast]
  constructor
  · rintro ⟨k, hk, hi⟩
    omega
  · rintro ⟨hfirst, hlast⟩
    exact ⟨i.val - first, by omega, by omega⟩

/-- The run of all positions is those from `first` on and before its end, in index order. -/
theorem runOf_finRange (n first count : Nat) :
    runOf (List.finRange n) first count =
      (List.finRange n).filter fun i => decide (first ≤ i.val ∧ i.val < first + count) := by
  have sorted : (List.finRange n).Pairwise (· < ·) := List.pairwise_lt_finRange n
  have run : (runOf (List.finRange n) first count).Sublist (List.finRange n) :=
    (List.take_sublist _ _).trans (List.drop_sublist _ _)
  refine (sorted.sublist run).eq_of_mem_iff (sorted.filter _) fun i => ?_
  rw [mem_runOf_finRange]
  simp

/-- The run of a table, by the positions it takes. -/
theorem runOf_toList {α : Type} {n : Nat} (v : Vector α n) (first count : Nat) :
    runOf v.toList first count =
      ((List.finRange n).filter fun i => decide (first ≤ i.val ∧ i.val < first + count)).map fun i => v[i] := by
  have positions : v.toList = (List.finRange n).map fun i => v[i] := List.ext_getElem (by simp) (by simp)
  rw [positions, runOf_map, runOf_finRange]

/-! ### READ-METER (R163) -/

/-- READ-METER at step 6, by whether its run stays in the table. -/
theorem State.cmdReadMeter_eq (s : State) (m : MgmtSlot) (first count : Byte) :
    s.cmdReadMeter m [first, count] =
      if runValid first.toNat count.toNat 16 15 then
        (s, some (.okWith (((List.finRange 16).filter fun i =>
          decide (first.toNat ≤ i.val ∧ i.val < first.toNat + count.toNat)).map
            fun i => s.meters[i].bytes).flatten))
      else (s, some (.refuse .badIndex)) := by
  simp only [State.cmdReadMeter, byteAt, List.getD_cons_zero, List.getD_cons_succ, runOf_map, runOf_toList,
    List.map_map, Function.comp_def]

/-- Settles O52: the run that READ-METER takes of the table is the meters between its bounds, and step 6 leaves the
state as it stands in either case. -/
theorem readMeterReturnsTheRun : Obligations.ReadMeterReturnsTheRun := by
  intro dt tag first count m s hh hf hr
  have right : s.rightOf m = some .write ∨ (s.rightOf m ≠ none ∧ Command.readMeter.needsWrite = false) :=
    .inr ⟨hr, rfl⟩
  refine ⟨fun h1 h16 hend => ?inTable, fun hbad => ?outOfTable⟩
  case inTable =>
    have valid : runValid first.toNat count.toNat 16 15 = true := (runValid_iff ..).2 ⟨h1, h16, hend⟩
    exact congrArg Host.Outcome.next
      (State.agentRow_answers hh rfl hf right rfl ((State.cmdReadMeter_eq ..).trans (if_pos valid)))
  case outOfTable =>
    have invalid : ¬runValid first.toNat count.toNat 16 15 = true := by
      rw [runValid_iff]
      rcases hbad with rfl | hmost | hlast
      · simp
      · omega
      · omega
    exact congrArg Host.Outcome.next
      (State.agentRow_refused hh rfl hf right rfl fun u => by rw [State.cmdReadMeter_eq, if_neg invalid])

/-! ### ABANDON (R158) -/

/-- R40: the owner of the OPEN session. -/
theorem State.ownsSession_iff (s : State) (p : Port) (a : Byte) :
    s.ownsSession p a = true ↔ ∃ d, s.session = some d ∧ d.port = p ∧ d.addr = a := by
  simp only [State.ownsSession, Option.any_eq_true, Bool.and_eq_true, beq_iff_eq]

theorem State.cmdAbandon_owner {s : State} {m : MgmtSlot} (h : s.ownsSession m.port m.requester = true)
    (args : List Byte) : s.cmdAbandon m args = ({ s with session := none }, some (.okWith [])) := if_pos h

theorem State.cmdAbandon_other {s : State} {m : MgmtSlot} (h : ¬s.ownsSession m.port m.requester = true)
    (args : List Byte) : s.cmdAbandon m args = (s, some (.refuse .noSession)) := if_neg h

/-- Settles O58: step 6 looks at the session's owner alone, and the answer that follows leaves the session. -/
theorem abandonEndsTheSession : Obligations.AbandonEndsTheSession := by
  intro dt tag m s hh hf hr
  refine ⟨fun howner => ?owner, fun hother => ?other⟩
  case owner =>
    have owns : ((s.elapse dt).raiseAgent .requestsTaken).ownsSession m.port m.requester = true :=
      (State.ownsSession_iff ..).2 howner
    refine congrArg Host.Outcome.next ?_
    rw [State.agentRow_ready State.cmdAbandon dt hh rfl hf (.inl hr) rfl, State.cmdAbandon_owner owns]
    simp only [Answer.okWith, State.answer_session, State.answer_popped, MgmtSlot.tag_eq hh.2,
      MgmtSlot.code_eq hh.2, responseRecord_ok]
  case other =>
    have notOwner : ¬((s.elapse dt).raiseAgent .requestsTaken).ownsSession m.port m.requester = true := by
      rw [State.ownsSession_iff]
      rintro ⟨d, hd, howns⟩
      exact hother d hd howns
    refine congrArg Host.Outcome.next ?_
    rw [State.agentRow_answers hh rfl hf (.inl hr) rfl (State.cmdAbandon_other notOwner [])]
    exact congrArg (s.answered dt m tag · .none) (responseRecord_refusal tag 8 .noSession)

end Sys2Proof.Machine
end

section
/-! PROOF. What a step can do, said once: every event is a chain of elementary moves, with at most one change that its
command alone makes. The statements about every step follow by cases over the moves and the changes. -/

namespace Sys2Proof.Machine

/-! ### What a quiet move may do to one port -/

/-- A slot given another sequence or an abandon mark stays what it is to the frame store. -/
def Slot.Relabels (g : Slot → Slot) : Prop :=
  ∀ y, (g y).isData = y.isData ∧ (g y).isRequest = y.isRequest ∧ (g y).hasTrigger = y.hasTrigger ∧
    ∀ c, (g y).isOld c = y.isOld c

/-- The port holds the same slots with the same settings, its transmit path is IDLE as before, no counter has fallen,
and its drivers stay sound. -/
structure PortState.Quiet (x y : PortState) : Prop where
  urgent : y.urgent = x.urgent
  normal : y.normal = x.normal
  pos : ∃ g, Slot.Relabels g ∧ y.tx.pos = x.tx.pos.map g
  idle : y.tx.state = .idle ↔ x.tx.state = .idle
  select : y.tx.state = .select → x.tx.state = .select
  params : y.params = x.params
  inForce : y.inForce = x.inForce
  staged : y.staged = x.staged
  drivers : x.DriverSound → y.DriverSound
  rxCounters : ∀ i : Fin 18, x.rx.counters[i] ≤ y.rx.counters[i]
  txCounters : ∀ i : Fin 17, x.tx.counters[i] ≤ y.tx.counters[i]

theorem Slot.Relabels.refl : Slot.Relabels id := fun _ => ⟨rfl, rfl, rfl, fun _ => rfl⟩

theorem Slot.Relabels.withSeq (q : BitVec 4) : Slot.Relabels (Slot.withSeq q) := by
  rintro (d | m) <;> exact ⟨rfl, rfl, rfl, fun _ => rfl⟩

/-- A move of the receive path, and of what the line shows. -/
theorem PortState.Quiet.ofRx {x : PortState} {rx : RxPath} {i : Nat} {k : Option Nat}
    (hc : ∀ j : Fin 18, x.rx.counters[j] ≤ rx.counters[j])
    (hd : x.DriverSound → { x with rx := rx, idleSince := i, clash := k }.DriverSound) :
    x.Quiet { x with rx := rx, idleSince := i, clash := k } :=
  ⟨rfl, rfl, ⟨id, .refl, by simp⟩, .rfl, id, rfl, rfl, rfl, hd, hc, fun _ => BitVec.le_refl _⟩

/-- A move of the transmit path that keeps the slot in its position. -/
theorem PortState.Quiet.ofTx {x : PortState} {tx : TxPath} {k : Option Nat}
    (hp : ∃ g, Slot.Relabels g ∧ tx.pos = x.tx.pos.map g) (hi : tx.state = .idle ↔ x.tx.state = .idle)
    (hs : tx.state = .select → x.tx.state = .select) (hc : ∀ j : Fin 17, x.tx.counters[j] ≤ tx.counters[j])
    (hd : x.DriverSound → { x with tx := tx, clash := k }.DriverSound) : x.Quiet { x with tx := tx, clash := k } :=
  ⟨rfl, rfl, hp, hi, hs, rfl, rfl, rfl, hd, fun _ => BitVec.le_refl _, hc⟩

/-! ### The moves -/

/-- The driver of the port is off, or nothing has been read back: its transmit path can be vacated. -/
def PortState.Stopped (x : PortState) : Prop := x.tx.state.isSending = true → x.clash = none

/-- R113: the head of a queue is in the transmit position; its frame's own deferral is still to be read. -/
def State.lifted (s : State) (p : Port) (h : Slot) (x : PortState) : State :=
  s.modPort p fun _ =>
    { x with
      tx := { x.tx with state := .defer 0 0 0, pos := some h, attempts := 0, collisions := 0, busies := 0 } }

/-- The path of a response has been vacated, and its mark taken down, before its restart trigger acts (R145). -/
def State.triggered (s : State) (p : Port) : State := { s.vacate p with restartPending := s.restartPending - 1 }

/-- Both ports flushed, as a fence that times out leaves them. -/
def State.flushed (s : State) : State := (s.flushOld .A).flushOld .B

/-- The elementary moves an event is made of, each under what holds when an event makes it. None of them touches the
clock, the banks, the designation, the commit count, or the stations and rights of the manager table, and none lowers a
counter. -/
inductive State.Move (s : State) : State → Prop
  | port (p : Port) (f : PortState → PortState) : (s.port p).Quiet (f (s.port p)) → s.Move (s.modPort p f)
  | count (v : Vector Count 11) : (∀ i : Fin 11, s.agentCounters[i] ≤ v[i]) → s.Move { s with agentCounters := v }
  | pins (q : Pins) : s.Move { s with pins := q }
  | meters (v : Vector Meter 16) : (∀ i : Fin 16, s.meters[i].Sound → v[i].Sound) → s.Move { s with meters := v }
  | session (d : Option Session) :
    (∀ e ∈ d, ∃ e' ∈ s.session, e.port = e'.port ∧ e.addr = e'.addr ∧ e.leaseSecs = e'.leaseSecs) →
    s.Move { s with session := d }
  | tags (g : Manager → Manager) : (∀ e, (g e).port = e.port ∧ (g e).addr = e.addr ∧ (g e).right = e.right) →
    s.Move { s with managers := s.managers.map g }
  | lift (p : Port) (h : Slot) (x : PortState) : (s.port p).tx.state = .idle → (s.port p).head = some (h, x) →
    s.Move (s.lifted p h x)
  | store (e : Port) (q : QueueChoice) (d : DataSlot) : s.admitsData e = true → d.epoch = s.commitCount →
    s.Move (s.enqueue e q (.data d))
  | request (p : Port) (f : Frame) : s.admitsRequest = true → f.src ≠ 255 →
    s.Move { s with agentQueue := s.agentQueue ++ [requestSlot p f] }
  | free (p : Port) (d : DataSlot) : (s.port p).tx.pos = some (.data d) → (s.port p).Stopped →
    s.Move ((s.vacate p).reportFreed (decide (d.epoch ≠ s.commitCount)))
  | convert (p e : Port) (d n : DataSlot) : (s.port p).tx.pos = some (.data d) → (s.port p).Stopped →
    n.epoch = d.epoch → (s.vacate p).dataAt e < (s.port e).inForce.queueLimit →
    s.Move ((s.vacate p).enqueue e .normal (.data n))
  | release (p : Port) : (∀ x ∈ (s.port p).tx.pos, x.isData = false ∧ x.hasTrigger = false) → (s.port p).Stopped →
    s.Move (s.vacate p)
  | portRestart (p q : Port) (m : MgmtSlot) : (s.port p).tx.pos = some (.mgmt m) → m.trigger = .restartPort q →
    (s.port p).Stopped → s.Move ((s.triggered p).portRestart q)
  | softRestart (p : Port) (m : MgmtSlot) : (s.port p).tx.pos = some (.mgmt m) → m.trigger = .restart →
    s.Move (s.triggered p).softRestart
  | timeOut (f : Fence) (n : Nat) : s.fence = some f →
    s.Move (s.flushed.endFence f .fenceTimeout n)
  | respond (m : MgmtSlot) (record : List Byte) (fresh : Option (List Byte)) : s.agentQueue.head? = some m →
    s.Move (s.popRequest.respond m record .none fresh)
  | respondTrigger (m : MgmtSlot) (record : List Byte) (t : Trigger) (fresh : Option (List Byte)) :
    s.agentQueue.head? = some m → t ≠ .none → s.Move (s.raiseMark.popRequest.respond m record t fresh)
  | hold (m : MgmtSlot) (deadline : Nat) : s.agentQueue.head? = some m → s.fence = none → s.oldCount ≠ 0 →
    s.Move { s with fence := some ⟨deadline, m⟩ }.popRequest

/-- A chain of moves. -/
def State.Moves (s t : State) : Prop := Relation.ReflTransGen State.Move s t

theorem State.Moves.refl {s : State} : s.Moves s := Relation.ReflTransGen.refl

theorem State.Moves.trans {s t u : State} (h1 : s.Moves t) (h2 : t.Moves u) : s.Moves u :=
  Relation.ReflTransGen.trans h1 h2

theorem State.Move.moves {s t : State} (h : s.Move t) : s.Moves t := Relation.ReflTransGen.single h

/-- What one command alone changes, under what holds when it does: the banks, the designation, the stations of the
manager table, a new session, the parameters, and counters that are read and zeroed. -/
inductive State.Change (s : State) : Instr → State → Prop
  | taken (dt : Nat) (p : Port) (path : List (Fin 128)) :
    s.Change (.frameEnd dt p) (s.modBank s.active fun b => b.taken path)
  | swap (dt : Nat) : s.fence = none →
    s.Change (.commit dt) { s with active := s.active.other, commitCount := s.commitCount + 1, session := none }
  | openSession (dt : Nat) (m : MgmtSlot) (secs : Nat) (mode : StartMode) (e : Manager) :
    s.manager m.port m.requester = some e → e.right = .write → 1 ≤ secs → secs ≤ 120 →
    s.Change (.openEdit dt) (s.openSession m secs mode)
  | writeRule (dt : Nat) (i : Fin 128) (e : RuleEntry) :
    s.Change (.writeRule dt) (s.modBank s.standby (Bank.writeRule i e))
  | writeProfile (dt : Nat) (i : Fin 32) (q : Profile) :
    s.Change (.writeProfile dt) (s.modBank s.standby (Bank.writeProfile i q))
  | zeroHits (dt : Nat) (n : BankName) (first count : Nat) :
    s.Change (.readHits dt) (s.modBank n (Bank.zeroHits first count))
  | zeroGroup (dt : Nat) (g : Group) : s.Change (.readCounters dt) (s.zeroGroup g)
  | setPort (dt : Nat) (p : Port) (b : ParamBlock) :
    b.inRange = true → (b.params (s.port p).params).gapsOrdered = true →
    s.Change (.setPort dt) (s.modPort p (PortState.applyBlock b))
  | addManager (dt : Nat) (en : Bool) (p : Port) (a : Byte) (r : Right) :
    s.manager p a = none → a ≠ 255 ∨ (∃ m ∈ s.agentQueue, m.requester = a) → s.managers.length < Config.managerCap →
    s.Change (.enrol dt en) (s.addManager p a r)
  | changeRight (dt : Nat) (en : Bool) (p : Port) (a : Byte) (e : Manager) (r : Right) : s.manager p a = some e →
    s.Change (.enrol dt en) (s.changeRight p a e.right r)
  | dismiss (dt : Nat) (en : Bool) (p : Port) (a : Byte) :
    s.Change (.dismiss dt en) ({ s with managers := s.managers.filter fun x => !x.is p a }.dropSession p a)

/-- An event of command `c`: moves, at most one change of `c`'s own, and moves. -/
def State.Event (c : Instr) (s t : State) : Prop :=
  ∃ u v, s.Moves u ∧ (v = u ∨ u.Change c v) ∧ v.Moves t

theorem State.Moves.event {c : Instr} {s t : State} (h : s.Moves t) : State.Event c s t := ⟨t, t, h, .inl rfl, .refl⟩

theorem State.Change.event {c : Instr} {s t : State} (h : s.Change c t) : State.Event c s t :=
  ⟨s, t, .refl, .inr h, .refl⟩

theorem State.Moves.then_event {c : Instr} {s t u : State} (h : s.Moves t) (he : State.Event c t u) :
    State.Event c s u := by
  obtain ⟨a, b, h1, h2, h3⟩ := he
  exact ⟨a, b, h.trans h1, h2, h3⟩

theorem State.Event.then_moves {c : Instr} {s t u : State} (he : State.Event c s t) (h : t.Moves u) :
    State.Event c s u := by
  obtain ⟨a, b, h1, h2, h3⟩ := he
  exact ⟨a, b, h1, h2, h3.trans h⟩

end Sys2Proof.Machine
end

section
/-! PROOF. Every event is a chain of moves with at most one change of its command's own: the receive and the transmit
events, the timers. -/

namespace Sys2Proof.Machine

/-! ### Counters, and moves of one path -/

theorem State.moves_modPort {s : State} {p : Port} {f : PortState → PortState}
    (h : (s.port p).Quiet (f (s.port p))) : s.Moves (s.modPort p f) := (Move.port p f h).moves

theorem State.moves_modRx {s : State} {p : Port} {f : RxPath → RxPath}
    (hc : ∀ j : Fin 18, (s.port p).rx.counters[j] ≤ (f (s.port p).rx).counters[j])
    (hd : (s.port p).DriverSound → { s.port p with rx := f (s.port p).rx }.DriverSound) : s.Moves (s.modRx p f) :=
  (Move.port p _ (.ofRx hc hd)).moves

theorem State.moves_raiseRx (s : State) (p : Port) (c : RxCounter) : s.Moves (s.raiseRx p c) :=
  moves_modRx (fun _ => le_raiseAt _ _ _ _) id

/-- A move that leaves the state of the path and the slot in its position. -/
theorem State.moves_modTx_same {s : State} {p : Port} {f : TxPath → TxPath}
    (hpos : (f (s.port p).tx).pos = (s.port p).tx.pos) (hs : (f (s.port p).tx).state = (s.port p).tx.state)
    (hc : ∀ j : Fin 17, (s.port p).tx.counters[j] ≤ (f (s.port p).tx).counters[j]) : s.Moves (s.modTx p f) :=
  (Move.port p _ (.ofTx ⟨id, .refl, by simpa using hpos⟩ (by rw [hs]) (by rw [hs]; exact id) hc
    fun hd => ⟨by rw [hs]; exact hd.1, by rw [hs]; exact hd.2⟩)).moves

theorem State.moves_raiseTxBy (s : State) (p : Port) (c : TxCounter) (n : Nat) : s.Moves (s.raiseTxBy p c n) :=
  moves_modTx_same rfl rfl fun _ => le_raiseAt _ _ _ _

theorem State.moves_raiseTx (s : State) (p : Port) (c : TxCounter) : s.Moves (s.raiseTx p c) :=
  s.moves_raiseTxBy p c 1

theorem State.moves_raiseAgent (s : State) (c : AgentCounter) : s.Moves (s.raiseAgent c) :=
  (Move.count _ fun _ => le_raiseAt _ _ _ _).moves

/-- A path that does not send can be given any state but IDLE and SELECT that does not send, with other counts. -/
theorem State.moves_modTx {s : State} {p : Port} {f : TxPath → TxPath} (hidle : (s.port p).tx.state ≠ .idle)
    (hstop : (s.port p).Stopped) (hpos : (f (s.port p).tx).pos = (s.port p).tx.pos)
    (hc : (f (s.port p).tx).counters = (s.port p).tx.counters) (hi : (f (s.port p).tx).state ≠ .idle)
    (hsel : (f (s.port p).tx).state = .select → (s.port p).tx.state = .select)
    (hs : (f (s.port p).tx).state.isSending = false) : s.Moves (s.modTx p f) := by
  refine (Move.port p _ (.ofTx ⟨id, .refl, by simpa using hpos⟩ (by simp [hidle, hi]) hsel
    (fun j => by rw [hc]; exact BitVec.le_refl _) fun hx => ⟨by simp [hs], fun hk => ?_⟩)).moves
  exact .inr ((hx.2 hk).resolve_left fun h => hk (hstop h))

/-! ### The end of a frame (R70 to R73, R125, R127) -/

theorem State.moves_endFreed {s : State} {p : Port} (h : (s.port p).Stopped) : s.Moves (s.endFreed p) := by
  have hr : (s.vacate p).restartPending = s.restartPending := by simp [State.vacate]
  cases hp : (s.port p).tx.pos with
  | none => exact State.endFreed_none hp ▸ (Move.release p (by simp [hp]) h).moves
  | some x =>
    cases x with
    | data d => exact State.endFreed_data hp ▸ (Move.free p d hp h).moves
    | mgmt m =>
      rw [State.endFreed_mgmt hp]
      rcases State.runTrigger_cases (s.vacate p) m.trigger with ⟨ht, he⟩ | ⟨ht, he⟩ | ⟨q, ht, he⟩ <;> rw [he]
      · exact (Move.release p (by simp [hp, Slot.isData, Slot.hasTrigger, ht]) h).moves
      · rw [hr]; exact (Move.softRestart p m hp ht).moves
      · rw [hr]; exact (Move.portRestart p q m hp ht h).moves

theorem State.moves_endFailed {s : State} {p : Port} (h : (s.port p).Stopped) (r : Failure) :
    s.Moves (s.endFailed p r) := by
  rcases s.endFailed_cases p r with ⟨d, hd, -, hq, he⟩ | ⟨d, hd, -, -, he⟩ | ⟨-, he⟩ <;> rw [he]
  · exact (Move.convert p d.ingress d (s.notice d r (s.port p).tx.attempts) hd h rfl hq).moves.trans
      (moves_raiseTx _ p _)
  · have hraise : (s.vacate p).raiseTx p .noticesDropped = (s.raiseTx p .noticesDropped).vacate p := by
      cases p <;> rfl
    have hcc : s.commitCount = (s.raiseTx p .noticesDropped).commitCount := by cases p <;> rfl
    rw [hraise, hcc]
    exact (s.moves_raiseTx p _).trans (Move.free p d (by simpa using hd) (by cases p <;> exact h)).moves
  · exact moves_endFreed h

theorem State.moves_endFenced {s : State} {p : Port} (h : (s.port p).Stopped) : s.Moves (s.endFenced p) :=
  (s.moves_raiseTx p _).trans (moves_endFreed (by cases p <;> exact h))

/-! ### Deferral and backoff (R116, R119, R120) -/

theorem State.moves_startSend {s : State} {p : Port} (hidle : (s.port p).tx.state ≠ .idle)
    (hrx : (s.port p).rx.state = .idle) : s.Moves (s.startSend p) := by
  refine moves_modPort ?_
  exact .ofTx ⟨id, .refl, by simp⟩ (by simp [hidle]) (by simp) (fun _ => BitVec.le_refl _)
    fun _ => ⟨fun _ => hrx, fun h => absurd rfl h⟩

theorem State.moves_enterDefer {s : State} {p : Port} (hidle : (s.port p).tx.state ≠ .idle)
    (hstop : (s.port p).Stopped) : s.Moves (s.enterDefer p) := by
  have hd : s.Moves (s.modTx p fun x =>
      { x with state := .defer (s.gapOf p) s.now (s.port p).params.deferLimit }) :=
    moves_modTx hidle hstop rfl rfl (by simp) (by simp) rfl
  unfold State.enterDefer
  dsimp only
  split
  · rename_i h
    exact hd.trans (moves_startSend (by simp) (by simpa using h.2))
  · exact hd

theorem State.moves_enterBackoff {s : State} {p : Port} (hidle : (s.port p).tx.state ≠ .idle)
    (hstop : (s.port p).Stopped) (began : Nat) : s.Moves (s.enterBackoff p began) := by
  rcases s.enterBackoff_cases p began with ⟨-, he⟩ | ⟨-, he⟩ <;> rw [he]
  · exact moves_enterDefer hidle hstop
  · exact moves_modTx hidle hstop rfl rfl (by simp) (by simp) rfl

theorem State.moves_retryCheck {s : State} {p : Port} (hidle : (s.port p).tx.state ≠ .idle)
    (hstop : (s.port p).Stopped) (failed : Nat) : s.Moves (s.retryCheck p failed) := by
  rcases s.retryCheck_cases p failed with ⟨-, he⟩ | ⟨-, he⟩ <;> rw [he]
  · exact (s.moves_raiseTx p _).trans (moves_endFailed (by cases p <;> exact hstop) _)
  · exact moves_enterBackoff hidle hstop failed

/-! ### The reply wait (R121 to R124) -/

/-- A path that waits for a reply is neither IDLE nor driving. -/
theorem PortState.awaiting {x : PortState} (h : x.tx.state.isAwaiting = true) : x.tx.state ≠ .idle ∧ x.Stopped := by
  unfold PortState.Stopped
  cases hs : x.tx.state <;> simp_all [TxState.isAwaiting, TxState.isSending]

/-- One more attempt, collision or BUSY is counted for the frame in the position. -/
theorem State.moves_recount {s : State} {p : Port} (a c b : TxPath → Nat) :
    s.Moves (s.modTx p fun x => { x with attempts := a x, collisions := c x, busies := b x }) :=
  moves_modTx_same rfl rfl fun _ => BitVec.le_refl _

theorem State.moves_endNoReply {s : State} {p : Port} (h : (s.port p).tx.state.isAwaiting = true) :
    s.Moves (s.endNoReply p) := by
  obtain ⟨hidle, hstop⟩ := PortState.awaiting h
  refine ((s.moves_raiseTx p _).trans (moves_recount _ (·.collisions) (·.busies))).trans
    (moves_retryCheck ?_ ?_ s.clock) <;> cases p <;> assumption

theorem State.moves_settle {s : State} {p : Port} (h : (s.port p).tx.state.isAwaiting = true) (r : ReplyType) :
    s.Moves (s.settle p r) := by
  obtain ⟨hidle, hstop⟩ := PortState.awaiting h
  cases r with
  | ack =>
    simp only [State.settle, State.endDelivered]
    refine ((s.moves_raiseTx p .delivered).trans ?_).trans (moves_endFreed ?_)
    · split
      · exact moves_raiseTx _ p _
      · split
        · exact moves_raiseTx _ p _
        · exact .refl
    · split
      · cases p <;> exact hstop
      · split <;> cases p <;> exact hstop
  | busy =>
    have hcount := (s.moves_raiseTx p .busyReceived).trans
      (moves_recount (p := p) (·.attempts) (·.collisions) fun x => x.busies + 1)
    simp only [State.settle, State.endBusy]
    split
    · exact hcount.trans ((moves_raiseTx _ p _).trans (moves_endFailed (by cases p <;> exact hstop) _))
    · refine hcount.trans (moves_modTx ?_ ?_ rfl rfl (by simp) (by simp) rfl) <;> cases p <;> assumption
  | refuse => exact (s.moves_raiseTx p _).trans (moves_endFailed (by cases p <;> exact hstop) _)

/-! ### Replies decided (R105) -/

theorem State.moves_endSilent {s : State} {p : Port} (h : (s.port p).rx.state = .receiving) :
    s.Moves (s.endSilent p) := by
  refine moves_modRx (fun _ => BitVec.le_refl _) fun hd => ⟨fun _ => rfl, fun hk => .inl ?_⟩
  simpa [h, RxState.isReplying] using hd.2 hk

theorem State.moves_owe {s : State} {p : Port} (h : (s.port p).rx.state = .receiving) (f : Frame) (t : ReplyType) :
    s.Moves (s.owe p f t) := by
  refine moves_modRx (fun _ => BitVec.le_refl _) fun hd => ⟨fun hs => ?_, fun hk => .inl ?_⟩
  · simpa [h] using hd.1 hs
  · simpa [h, RxState.isReplying] using hd.2 hk

theorem State.moves_oweUnicast {s : State} {p : Port} (h : (s.port p).rx.state = .receiving) (f : Frame)
    (t : ReplyType) : s.Moves (s.oweUnicast p f t) := by
  unfold State.oweUnicast
  split
  · exact moves_endSilent h
  · exact moves_owe h f t

/-! ### The walk's conclusion (R15 to R22) -/

theorem Meter.Sound.charged {m : Meter} (h : m.Sound) (n : Nat) : { m with tokens := m.tokens - n }.Sound := by
  obtain ⟨h1, h2⟩ := h
  exact ⟨by dsimp only; omega, h2⟩

theorem State.moves_chargeMeters (s : State) (path : List (Fin 128)) (f : Frame) : s.Moves (s.chargeMeters path f) := by
  refine (Move.meters _ fun i hi => ?_).moves
  simp only [Fin.getElem_fin, Vector.getElem_ofFn]
  split
  · exact hi.charged _
  · exact hi

theorem State.moves_recordFilter (s : State) (p : Port) (f : Frame) : s.Moves (s.recordFilter p f) :=
  moves_modRx (fun _ => BitVec.le_refl _) id

@[simp] theorem State.chargeMeters_port (s : State) (path : List (Fin 128)) (f : Frame) (p : Port) :
    (s.chargeMeters path f).port p = s.port p := by cases p <;> rfl
@[simp] theorem State.enqueue_rx (s : State) (e p : Port) (q : QueueChoice) (x : Slot) :
    ((s.enqueue e q x).port p).rx = (s.port p).rx := by cases e <;> cases p <;> cases q <;> rfl
/-- R60, R64: the counts and the admission look at the slots of the ports, the agent queue, the fence and the queue
limits alone. -/
theorem State.mgmtCount_congr {s t : State} (hp : ∀ q, (t.port q).slots = (s.port q).slots)
    (hq : t.agentQueue = s.agentQueue) (hf : t.fence = s.fence) : t.mgmtCount = s.mgmtCount := by
  unfold State.mgmtCount
  rw [hp, hp, hq, hf]

theorem State.admitsData_congr {s t : State} (hp : ∀ q, (t.port q).slots = (s.port q).slots)
    (hl : ∀ q, (t.port q).inForce = (s.port q).inForce) (hq : t.agentQueue = s.agentQueue) (hf : t.fence = s.fence)
    (e : Port) : t.admitsData e = s.admitsData e := by
  rw [Bool.eq_iff_iff, State.admitsData_iff, State.admitsData_iff, State.mgmtCount_congr hp hq hf]
  simp only [State.dataCount, State.dataAt, hp, hl]

@[simp] theorem State.chargeMeters_admitsData (s : State) (path : List (Fin 128)) (f : Frame) (e : Port) :
    (s.chargeMeters path f).admitsData e = s.admitsData e := by
  apply State.admitsData_congr
  · simp
  · simp
  · rfl
  · rfl

@[simp] theorem State.modBank_admitsData (s : State) (n : BankName) (f : Bank → Bank) (e : Port) :
    (s.modBank n f).admitsData e = s.admitsData e :=
  State.admitsData_congr (by simp) (by simp) (by simp) (by simp) e
@[simp] theorem State.recordFilter_admitsData (s : State) (p e : Port) (f : Frame) :
    (s.recordFilter p f).admitsData e = s.admitsData e :=
  State.admitsData_congr (by simp [PortState.slots, State.recordFilter]) (by simp [State.recordFilter])
    (by simp [State.recordFilter]) (by simp [State.recordFilter]) e
@[simp] theorem State.recordFilter_rxState (s : State) (p : Port) (f : Frame) :
    ((s.recordFilter p f).port p).rx.state = (s.port p).rx.state := by cases p <;> rfl

theorem State.event_take {s : State} {p : Port} {f : Frame} {q : Profile} (dt : Nat)
    (h : (s.port p).rx.state = .receiving) (ha : s.admitsData (q.egress.port p) = true) (path : List (Fin 128))
    (choice : QueueChoice) (charged : Bool) :
    State.Event (.frameEnd dt p) s (s.take p f path q choice charged) := by
  unfold State.take
  extract_lets slot s1 s2 s3
  have h1 : s.Moves s1 ∧ s1.admitsData (q.egress.port p) = true ∧ (s1.port p).rx.state = .receiving ∧
      s1.active = s.active ∧ s1.commitCount = s.commitCount := by
    unfold s1
    split
    · exact ⟨s.moves_chargeMeters path f, by simpa using ha, by simpa using h, rfl, rfl⟩
    · exact ⟨.refl, ha, h, rfl, rfl⟩
  clear_value s1
  obtain ⟨m1, ha1, hr1, hb1, hc1⟩ := h1
  have h2 : s1.Change (.frameEnd dt p) s2 ∧ s2.admitsData (q.egress.port p) = true ∧
      (s2.port p).rx.state = .receiving ∧ s2.commitCount = s.commitCount := by
    unfold s2
    exact ⟨hb1 ▸ .taken dt p path, by simpa using ha1, by simpa using hr1, by simpa using hc1⟩
  clear_value s2
  obtain ⟨c2, ha2, hr2, hc2⟩ := h2
  have h3 : s2.Moves s3 ∧ s3.admitsData (q.egress.port p) = true ∧
      (s3.port p).rx.state = .receiving ∧ s3.commitCount = s.commitCount := by
    unfold s3
    split
    · exact ⟨.refl, ha2, hr2, hc2⟩
    · exact ⟨s2.moves_recordFilter p f, by simpa using ha2, by simpa using hr2,
        by simpa [State.recordFilter] using hc2⟩
  clear_value s3
  obtain ⟨m3, ha3, hr3, hc3⟩ := h3
  have stored : s3.Moves (s3.enqueue slot.egress choice (.data slot)) := (Move.store _ choice slot ha3 hc3.symm).moves
  exact m1.then_event (c2.event.then_moves (m3.trans ((stored.trans (moves_raiseRx _ p .takenForward)).trans
    (moves_oweUnicast (by simpa using hr3) f .ack))))

theorem State.event_present {s : State} {p : Port} {f : Frame} {q : Profile} (dt : Nat)
    (h : (s.port p).rx.state = .receiving) (path : List (Fin 128)) (choice : QueueChoice) (charged : Bool) :
    State.Event (.frameEnd dt p) s (s.present p f path q choice charged) := by
  rcases s.present_cases p f path q choice charged with ⟨ha, he⟩ | ⟨-, he⟩ <;> rw [he]
  · exact event_take dt h ha path choice charged
  · split
    · exact ((s.moves_raiseRx p _).trans (moves_endSilent (p := p) (by simpa using h))).event
    · exact (moves_owe h f .busy).event

theorem State.event_forward {s : State} {p : Port} (dt : Nat) (h : (s.port p).rx.state = .receiving) (f : Frame)
    (path : List (Fin 128)) (q : Profile) : State.Event (.frameEnd dt p) s (s.forward p f path q) := by
  have hr : ∀ c, ((s.raiseRx p c).port p).rx.state = .receiving := fun c => by simpa using h
  rcases s.forward_cases p f path q with he | he | he | he | he | he | he <;> rw [he]
  · exact ((s.moves_raiseRx p _).trans (moves_owe (hr _) f _)).event
  · exact ((s.moves_raiseRx p _).trans (moves_oweUnicast (hr _) f _)).event
  · exact event_present dt h path _ _
  · exact ((s.moves_raiseRx p _).trans (moves_endSilent (hr _))).event
  · exact ((s.moves_raiseRx p _).trans (moves_oweUnicast (hr _) f _)).event
  · exact ((s.moves_raiseRx p _).trans (moves_oweUnicast (hr _) f _)).event
  · exact (s.moves_raiseRx p _).then_event (event_present dt (hr _) path _ _)

theorem State.event_runWalk {s : State} {p : Port} (dt : Nat) (h : (s.port p).rx.state = .receiving) (f : Frame) :
    State.Event (.frameEnd dt p) s (s.runWalk p f) := by
  have hr : ∀ c, ((s.raiseRx p c).port p).rx.state = .receiving := fun c => by simpa using h
  rcases s.runWalk_cases p f with he | he | he | ⟨path, i, -, -, he⟩ <;> rw [he]
  · exact ((s.moves_raiseRx p _).trans (moves_endSilent (hr _))).event
  · exact ((s.moves_raiseRx p _).trans (moves_endSilent (hr _))).event
  · exact ((s.moves_raiseRx p _).trans (moves_oweUnicast (hr _) f _)).event
  · exact event_forward dt h f path _

/-! ### The intake and the routing (R97 to R101) -/

theorem State.moves_setPending (s : State) (p : Port) (f : Frame) : s.Moves (s.setPending p f) := by
  unfold State.setPending
  split
  · exact .refl
  · refine (Move.tags _ fun e => ?_).moves
    split <;> exact ⟨rfl, rfl, rfl⟩

@[simp] theorem State.setPending_port (s : State) (p q : Port) (f : Frame) :
    (s.setPending p f).port q = s.port q := by
  unfold State.setPending
  split
  · rfl
  · cases q <;> rfl

theorem State.moves_intake {s : State} {p : Port} {f : Frame} (h : (s.port p).rx.state = .receiving)
    (hsrc : f.src ≠ 255) : s.Moves (s.intake p f) := by
  rcases s.intake_cases p f with he | he | ⟨ha, he⟩ | he <;> rw [he]
  · exact (s.moves_raiseRx p _).trans (moves_owe (by simpa using h) f _)
  · exact (s.moves_raiseAgent _).trans (moves_owe (by simpa using h) f _)
  · unfold State.takeRequest
    extract_lets s1
    have m1 : s.Moves s1 := (Move.request p f ha hsrc).moves
    have e1 : (s1.port p).rx.state = .receiving := by cases p <;> exact h
    exact (((m1.trans (moves_recordFilter s1 p f)).trans (moves_setPending _ p f)).trans
      (moves_raiseRx _ p _)).trans (moves_owe (by simpa using e1) f _)
  · exact (s.moves_raiseAgent _).trans (moves_owe (by simpa using h) f _)

theorem State.event_route {s : State} {p : Port} {f : Frame} (dt : Nat) (h : (s.port p).rx.state = .receiving)
    (hsrc : f.src ≠ 255) : State.Event (.frameEnd dt p) s (s.route p f) := by
  unfold State.route
  split
  · split
    · exact ((s.moves_raiseRx p _).trans (moves_endSilent (p := p) (by simpa using h))).event
    · exact (moves_endSilent h).event
  · split
    · split
      · exact (moves_intake h hsrc).event
      · exact ((s.moves_raiseRx p _).trans (moves_endSilent (p := p) (by simpa using h))).event
    · exact event_runWalk dt h f

/-! ### The frame end (R96, R98, R99) -/

/-- R96: a frame that passes screening has a station's source. -/
theorem screen_src {own : Byte} {b : List Byte} {n : Nat} {fault : Bool} {f : Frame}
    (h : screen own b n fault = .good f) : f.src ≠ 255 := by
  unfold screen screenBytes at h
  split at h
  · cases h
  · dsimp only at h
    split at h
    · cases h
    · split at h
      · cases h
      · split at h
        · cases h
        · split at h
          · cases h
          · split at h
            · cases h
            · rename_i hs
              cases h
              exact fun h => hs (.inl h)

theorem State.event_handleFrame {s : State} {p : Port} {v : Screened} (dt : Nat)
    (hv : ∀ f, v = .good f → f.src ≠ 255) : State.Event (.frameEnd dt p) s (s.handleFrame p v) := by
  unfold State.handleFrame
  split
  · rename_i h
    cases v with
    | failed c => exact ((s.moves_raiseRx p c).trans (moves_endSilent (by simpa using h))).event
    | good f => exact (s.moves_raiseRx p _).then_event (event_route dt (by simpa using h) (hv f rfl))
  · exact Moves.event .refl

/-- The end of a fence touches no path. -/
@[simp] theorem State.endFence_rx (s : State) (f : Fence) (st : Status) (n : Nat) (p : Port) :
    ((s.endFence f st n).port p).rx = (s.port p).rx := by
  rw [State.endFence_eq]
  cases f.holder.port <;> cases p <;> rfl

@[simp] theorem State.endFence_tx (s : State) (f : Fence) (st : Status) (n : Nat) (p : Port) :
    ((s.endFence f st n).port p).tx = (s.port p).tx := by
  rw [State.endFence_eq]
  cases f.holder.port <;> cases p <;> rfl

@[simp] theorem State.reportFreed_rx (s : State) (b : Bool) (p : Port) :
    ((s.reportFreed b).port p).rx = (s.port p).rx := by
  rcases s.reportFreed_cases b with h | ⟨f, -, -, -, h⟩ <;> simp [h]

@[simp] theorem State.reportFreed_tx (s : State) (b : Bool) (p : Port) :
    ((s.reportFreed b).port p).tx = (s.port p).tx := by
  rcases s.reportFreed_cases b with h | ⟨f, -, -, -, h⟩ <;> simp [h]

/-- R54: what the settlement of a marked frame does. -/
theorem State.settleMark_cases (s : State) (p : Port) :
    s.settleMark p = s ∨ (s.port p).tx.state.isAwaiting = true ∧ ∃ d, (s.port p).tx.pos = some (.data d) ∧
      s.settleMark p = ((s.raiseTx p .fenced).vacate p).reportFreed (decide (d.epoch ≠ s.commitCount)) := by
  unfold State.settleMark
  split
  · rename_i h
    obtain ⟨hw, hm⟩ := (Bool.and_eq_true _ _).mp h
    obtain ⟨x, hx, hmark⟩ := (Option.any_eq_true _ _).mp hm
    cases x with
    | mgmt m => simp [Slot.marked] at hmark
    | data d =>
      have hcc : (s.raiseTx p .fenced).commitCount = s.commitCount := by cases p <;> rfl
      exact .inr ⟨hw, d, hx, by rw [State.endFenced, State.endFreed_data (d := d) (by simpa using hx), hcc]⟩
  · exact .inl rfl

theorem State.moves_settleMark (s : State) (p : Port) : s.Moves (s.settleMark p) := by
  unfold State.settleMark
  split
  · rename_i h
    exact moves_endFenced (PortState.awaiting ((Bool.and_eq_true _ _).mp h).1).2
  · exact .refl

/-- The settlement of a marked frame leaves the receive path as it is. -/
@[simp] theorem State.settleMark_rx (s : State) (p : Port) : ((s.settleMark p).port p).rx = (s.port p).rx := by
  rcases s.settleMark_cases p with h | ⟨-, d, -, h⟩ <;> simp [h, State.vacate]

theorem State.event_judgeFrame {s : State} {p : Port} {v : Screened} (dt : Nat)
    (h : (s.port p).rx.state = .receiving) (hv : ∀ f, v = .good f → f.src ≠ 255) :
    State.Event (.frameEnd dt p) s (s.judgeFrame p v) := by
  have hwait : s.decidesWait p = true → (s.port p).tx.state.isAwaiting = true := fun hd =>
    ((Bool.and_eq_true _ _).mp hd).1
  rcases s.judgeFrame_cases p v with ⟨r, hd, -, he⟩ | ⟨hd, -, he⟩ | ⟨-, he⟩ <;> rw [he]
  · refine (((s.moves_raiseRx p _).trans (moves_endSilent (by simpa using h))).trans (moves_settle ?_ r)).event
    simpa [State.endSilent] using hwait hd
  · exact (moves_endNoReply (hwait hd)).then_event (event_handleFrame dt hv)
  · exact event_handleFrame dt hv

theorem State.event_frameEnds (s : State) (dt : Nat) (p : Port) : State.Event (.frameEnd dt p) s (s.frameEnds p) := by
  unfold State.frameEnds
  split
  · rename_i h
    exact (s.moves_settleMark p).then_event
      (event_judgeFrame dt (by simpa using h.1) fun f hf => screen_src hf)
  · exact Moves.event .refl

/-! ### Assembly and replies (R81, R86, R95, R106 to R108) -/

theorem State.moves_activity (s : State) (p : Port) (bits : Nat) : s.Moves (s.activity p bits) :=
  moves_modPort (.ofRx (fun _ => BitVec.le_refl _) id)

/-- Assembly begins at a port that drives nothing. -/
theorem State.moves_beginFrame {s : State} {p : Port}
    (hs : (s.port p).tx.state.isSending = true → (s.port p).rx.state ≠ .idle)
    (hr : (s.port p).rx.state.isReplying = false) : s.Moves (s.beginFrame p) := by
  refine moves_modRx (fun _ => BitVec.le_refl _) fun hd => ⟨fun h => absurd (hd.1 h) (hs h), fun hk => .inl ?_⟩
  exact (hd.2 hk).resolve_right (by simp [hr])

theorem State.moves_store (s : State) (p : Port) (act : Activity) : s.Moves (s.modRx p fun x => x.store act) := by
  cases act <;> exact moves_modRx (fun _ => BitVec.le_refl _) id

theorem State.moves_readBack {s : State} {p : Port} {start : Nat} (h : s.driveStart p = some start)
    (act : Activity) : s.Moves (s.readBack p start act) := by
  have hdrive : (s.port p).tx.state.isSending = true ∨ (s.port p).rx.state.isReplying = true := by
    have := s.driveStart_isSome p
    rw [h] at this
    simpa [State.driverEnable] using this.symm
  rcases s.readBack_cases p start act with ⟨-, he⟩ | ⟨-, -, he⟩ <;> rw [he]
  · exact .refl
  · refine moves_modPort ?_
    exact .ofRx (fun _ => BitVec.le_refl _) fun hd => ⟨hd.1, fun _ => hdrive⟩

theorem State.moves_receiveActivity (s : State) (p : Port) (act : Activity) :
    s.Moves (s.receiveActivity p act) := by
  unfold State.receiveActivity
  cases hd : s.driveStart p with
  | some start => exact moves_readBack hd act
  | none =>
    have hoff : (s.port p).tx.state.isSending = false ∧ (s.port p).rx.state.isReplying = false := by
      simpa [State.driverEnable] using State.driveStart_none.1 hd
    cases hr : (s.port p).rx.state with
    | idle =>
      dsimp only
      split
      · exact s.moves_activity p _
      · exact ((moves_beginFrame (by simp [hoff]) (by simp [hoff])).trans (moves_store _ p act)).trans
          (moves_activity _ p _)
    | receiving =>
      dsimp only
      split
      · exact (s.moves_store p act).trans (moves_activity _ p _)
      · exact .refl
    | oweReply r =>
      dsimp only
      split
      · exact .refl
      · exact (((s.moves_raiseRx p _).trans (moves_beginFrame (by simp [hoff]) (by simp [hoff]))).trans
          (moves_store _ p act)).trans (moves_activity _ p _)
    | replying r start => exact .refl

theorem State.moves_startReply (s : State) (p : Port) : s.Moves (s.startReply p) := by
  unfold State.startReply
  split
  · rename_i r hr
    split
    · refine moves_modPort ?_
      exact .ofRx (fun _ => BitVec.le_refl _) fun hd =>
        ⟨fun hs => by simpa [hr] using hd.1 hs, fun hk => absurd rfl hk⟩
    · exact .refl
  · exact .refl

theorem State.moves_driverOff (s : State) (p : Port) (ended : Nat) : s.Moves (s.driverOff p ended) := by
  refine moves_modPort ?_
  exact .ofRx (fun _ => BitVec.le_refl _) fun hd => ⟨hd.1, fun hk => absurd rfl hk⟩

theorem State.moves_replyOver {s : State} {p : Port} (h : (s.port p).clash = none) : s.Moves (s.replyOver p) :=
  moves_modRx (fun _ => BitVec.le_refl _) fun _ => ⟨fun _ => rfl, fun hk => absurd h hk⟩

theorem State.moves_completeReply (s : State) (p : Port) : s.Moves (s.completeReply p) := by
  unfold State.completeReply
  split
  · rename_i r start _
    dsimp only
    split
    · have hraise : s.Moves (s.raiseReplySent p r.type) := by
        cases r.type <;> first | exact .refl | exact s.moves_raiseRx p _
      exact (hraise.trans (moves_driverOff _ p _)).trans (moves_replyOver (by simp [State.driverOff]))
    · exact .refl
  · exact .refl

theorem State.moves_collideReply (s : State) (p : Port) (k : Nat) : s.Moves (s.collideReply p k) := by
  unfold State.collideReply
  split
  · dsimp only
    split
    · exact ((s.moves_raiseRx p _).trans (moves_driverOff _ p _)).trans (moves_replyOver (by simp [State.driverOff]))
    · exact .refl
  · exact .refl

theorem State.moves_startBitInOwe (s : State) (p : Port) : s.Moves (s.startBitInOwe p) := by
  unfold State.startBitInOwe
  split
  · rename_i r hr
    split
    · exact .refl
    · exact ((s.moves_raiseRx p _).trans (moves_beginFrame (by simp [hr]) (by simp [hr, RxState.isReplying]))).trans
        (moves_activity _ p 1)
  · exact .refl

/-! ### Transmitting (R113 to R120, R128) -/

/-- R113, R115: the slot taken up takes its sequence. -/
theorem State.moves_assignSeq {s : State} {p : Port} {h : Slot} (hp : (s.port p).tx.pos = some h) :
    s.Moves (s.modTx p fun y => y.assignSeq h) := by
  refine moves_modPort ?_
  unfold TxPath.assignSeq
  split
  · exact .ofTx ⟨_, .withSeq 0, by rw [hp]; rfl⟩ .rfl id (fun _ => BitVec.le_refl _) id
  · exact .ofTx ⟨_, .withSeq _, by rw [hp]; rfl⟩ .rfl id (fun _ => BitVec.le_refl _) id

/-- How an aged slot ends does not depend on the state its path is in. -/
theorem State.takeUp_aged (s : State) (p : Port) (h : Slot) (x : PortState) (hh : s.isAged p h = true) :
    ((s.takeUp p h x).raiseTx p .aged).endFailed p .aged = ((s.lifted p h x).raiseTx p .aged).endFailed p .aged := by
  cases h with
  | mgmt m => simp [State.isAged] at hh
  | data d =>
    have hv : ((s.takeUp p (.data d) x).raiseTx p .aged).vacate p =
        ((s.lifted p (.data d) x).raiseTx p .aged).vacate p := by cases p <;> rfl
    have hp : ((((s.takeUp p (.data d) x).raiseTx p .aged).port p).tx.pos = some (.data d)) ∧
        ((((s.lifted p (.data d) x).raiseTx p .aged).port p).tx.pos = some (.data d)) := by cases p <;> exact ⟨rfl, rfl⟩
    have hn : ∀ a, ((s.takeUp p (.data d) x).raiseTx p .aged).notice d .aged a =
        ((s.lifted p (.data d) x).raiseTx p .aged).notice d .aged a := by
      intro a; unfold State.notice; cases p <;> cases d.ingress <;> rfl
    have hl : (((s.takeUp p (.data d) x).raiseTx p .aged).port d.ingress).inForce =
        (((s.lifted p (.data d) x).raiseTx p .aged).port d.ingress).inForce := by
      cases p <;> cases d.ingress <;> rfl
    have ha : (((s.takeUp p (.data d) x).raiseTx p .aged).port p).tx.attempts =
        (((s.lifted p (.data d) x).raiseTx p .aged).port p).tx.attempts := by cases p <;> rfl
    have hc : ((s.takeUp p (.data d) x).raiseTx p .aged).commitCount =
        ((s.lifted p (.data d) x).raiseTx p .aged).commitCount := by cases p <;> rfl
    unfold State.endFailed
    simp only [hp, State.endFreed_data hp.1, State.endFreed_data hp.2, hv, hn, hl, ha, hc]

theorem State.takeUp_deferred (s : State) (p : Port) (h : Slot) (x : PortState) :
    ((s.takeUp p h x).modTx p fun y => y.assignSeq h).enterDefer p =
      ((s.lifted p h x).modTx p fun y => y.assignSeq h).enterDefer p := by
  unfold State.enterDefer TxPath.assignSeq
  cases h.frame.isBroadcast <;> cases p <;> rfl

theorem State.moves_select (s : State) (p : Port) : s.Moves (s.select p) := by
  rcases s.select_cases p with he | ⟨h, x, hh, hidle, ⟨ha, he⟩ | ⟨-, he⟩⟩ <;> rw [he]
  · exact .refl
  · rw [s.takeUp_aged p h x ha]
    refine (Move.lift p h x hidle hh).moves.trans ((moves_raiseTx _ p _).trans (moves_endFailed ?_ _))
    cases p <;> exact fun h => absurd h (by simp [State.lifted, State.raiseTx, State.raiseTxBy, State.modTx,
      State.modPort, State.port, TxState.isSending])
  · rw [s.takeUp_deferred p h x]
    have hstate : (((s.lifted p h x).modTx p fun y => y.assignSeq h).port p).tx.state = .defer 0 0 0 := by
      simp only [State.modTx_tx, TxPath.assignSeq]
      split <;> simp [State.lifted]
    refine (Move.lift p h x hidle hh).moves.trans
      ((moves_assignSeq (by simp [State.lifted])).trans (moves_enterDefer (by rw [hstate]; simp) fun h => ?_))
    rw [hstate] at h
    simp [TxState.isSending] at h

theorem State.moves_reachGap (s : State) (p : Port) : s.Moves (s.reachGap p) := by
  unfold State.reachGap
  split
  · rename_i hs
    split
    · rename_i h
      exact moves_startSend (by simp [hs]) h.2.1
    · exact .refl
  · exact .refl

theorem State.moves_exhaustDefer (s : State) (p : Port) : s.Moves (s.exhaustDefer p) := by
  unfold State.exhaustDefer
  split
  · rename_i hs
    split
    · refine (s.moves_raiseTx p _).trans (moves_endFailed (fun h => ?_) _)
      simp [hs, TxState.isSending] at h
    · exact .refl
  · exact .refl

theorem State.driverOff_stopped (s : State) (p : Port) (ended : Nat) : ((s.driverOff p ended).port p).Stopped :=
  fun _ => by simp [State.driverOff]

theorem State.moves_sendDone {s : State} {p : Port} {w start : Nat} (hs : (s.port p).tx.state = .sending w start)
    (x : Slot) (ended : Nat) : s.Moves (s.sendDone p x ended) := by
  unfold State.sendDone
  extract_lets s1
  have m1 : s.Moves s1 := (s.moves_driverOff p ended).trans (moves_modRx (fun _ => BitVec.le_refl _) id)
  have h1 : (s1.port p).Stopped := fun _ => by simp [s1, State.driverOff]
  have hidle : (s1.port p).tx.state ≠ .idle := by simp [s1, State.driverOff, hs]
  refine m1.trans ?_
  split
  · exact moves_endFenced h1
  · split
    · exact (s1.moves_raiseTx p _).trans (moves_endFreed (by cases p <;> exact h1))
    · exact moves_modTx hidle h1 rfl rfl (by simp) (by simp) rfl

theorem State.moves_completeSend (s : State) (p : Port) : s.Moves (s.completeSend p) := by
  unfold State.completeSend
  split
  · rename_i hs hp
    dsimp only
    split
    · exact moves_sendDone hs _ _
    · exact .refl
  · exact .refl

theorem State.moves_countCollision (s : State) (p : Port) : s.Moves (s.countCollision p) :=
  (s.moves_raiseTx p _).trans (moves_recount _ _ (·.busies))

theorem State.moves_collided {s : State} {p : Port} {w start : Nat} (hs : (s.port p).tx.state = .sending w start)
    (x : Slot) (k ended : Nat) : s.Moves (s.collided p x w k ended) := by
  unfold State.collided
  extract_lets s1 s2
  have m1 : s.Moves s1 := s.moves_driverOff p ended
  have h1 : (s1.port p).Stopped := s.driverOff_stopped p ended
  have hidle : (s1.port p).tx.state ≠ .idle := by simp [s1, State.driverOff, hs]
  refine m1.trans ?_
  split
  · refine (s1.moves_countCollision p).trans ?_
    split
    · exact moves_endFenced (by cases p <;> exact h1)
    · refine moves_retryCheck ?_ ?_ ended <;> cases p <;> assumption
  · have m2 : s1.Moves s2 := moves_recount _ (·.collisions) (·.busies)
    refine m2.trans ?_
    split
    · exact moves_endFenced (by cases p <;> exact h1)
    · exact (s2.moves_raiseTx p _).trans (moves_endFailed (by cases p <;> exact h1) _)

theorem State.moves_collide (s : State) (p : Port) (k : Nat) : s.Moves (s.collide p k) := by
  unfold State.collide
  split
  · rename_i hs hp
    dsimp only
    split
    · exact moves_collided hs _ _ _
    · exact .refl
  · exact .refl

theorem State.moves_endBackoff (s : State) (p : Port) : s.Moves (s.endBackoff p) := by
  unfold State.endBackoff
  split
  · rename_i hs
    split
    · exact moves_enterDefer (by simp [hs]) fun h => by simp [hs, TxState.isSending] at h
    · exact .refl
  · exact .refl

theorem State.moves_exhaustWait (s : State) (p : Port) : s.Moves (s.exhaustWait p) := by
  unfold State.exhaustWait
  split
  · rename_i hs
    split
    · exact moves_endNoReply (by rw [hs]; rfl)
    · exact .refl
  · exact .refl

theorem State.moves_endBusyHold (s : State) (p : Port) : s.Moves (s.endBusyHold p) := by
  unfold State.endBusyHold
  split
  · rename_i hs
    split
    · exact moves_enterDefer (by simp [hs]) fun h => by simp [hs, TxState.isSending] at h
    · exact .refl
  · exact .refl

theorem State.moves_obeyMark (s : State) (p : Port) : s.Moves (s.obeyMark p) := by
  unfold State.obeyMark
  split
  · rename_i h
    refine moves_endFenced fun hs => ?_
    cases hst : (s.port p).tx.state <;> simp_all [TxState.endsFencedNow, TxState.isSending]
  · exact .refl

/-! ### The timers (R28, R44, R53) -/

theorem Meter.Sound.refilled {m : Meter} (h : m.Sound) : m.refilled.Sound := by
  obtain ⟨-, h⟩ := h
  exact ⟨Nat.min_le_left _ _, h⟩

theorem State.moves_refillMeter (s : State) (m : Fin 16) : s.Moves (s.refillMeter m) := by
  unfold State.refillMeter
  split
  · refine (Move.meters _ fun i hi => ?_).moves
    simp only [Fin.getElem_fin, Vector.getElem_set]
    split
    · rename_i hmi
      obtain rfl : m = i := Fin.ext hmi
      exact hi.refilled
    · exact hi
  · exact .refl

theorem State.moves_noSession (s : State) : s.Moves { s with session := none } :=
  (Move.session none (by simp)).moves

theorem State.moves_lapse (s : State) : s.Moves s.lapse := by
  unfold State.lapse
  split
  · split
    · exact s.moves_noSession.trans (moves_raiseAgent _ _)
    · exact .refl
  · exact .refl

theorem State.moves_timeOutFence (s : State) : s.Moves s.timeOutFence := by
  unfold State.timeOutFence
  split
  · rename_i f hf
    split
    · exact (s.moves_raiseAgent .fenceTimeouts).trans
        (Move.timeOut (s := s.raiseAgent .fenceTimeouts) f s.oldCount hf).moves
    · exact .refl
  · exact .refl

end Sys2Proof.Machine
end

section
/-! PROOF. Every event is a chain of moves with at most one change of its command's own: the agent's rows, and the
dispatch. -/

namespace Sys2Proof.Machine

/-! ### The steps of R139 every command shares -/

/-- What a command does at step 6, seen as an event: it leaves a state from which its request is answered with no
restart trigger; it does nothing but ask for a restart; or its request leaves the queue unanswered. -/
def State.Sixth (c : Instr) (s : State) (r : State × Option Answer) : Prop :=
  (∃ t a, r = (t, some a) ∧ a.trigger = .none ∧ State.Event c s t ∧ t.agentQueue = s.agentQueue) ∨
  (∃ a, r = (s.raiseMark, some a) ∧ a.trigger ≠ .none) ∨
  ∃ t, r = (t, none) ∧ State.Event c s t.popRequest

theorem State.Sixth.answers {c : Instr} {s t : State} {a : Answer} (ha : a.trigger = .none) (h : State.Event c s t)
    (hq : t.agentQueue = s.agentQueue) : State.Sixth c s (t, some a) := .inl ⟨t, a, rfl, ha, h, hq⟩

/-- A command that only answers. -/
theorem State.Sixth.same {c : Instr} {s : State} {a : Answer} (ha : a.trigger = .none) :
    State.Sixth c s (s, some a) := .answers ha (Moves.event .refl) rfl

/-- A command that makes its own change and answers. -/
theorem State.Sixth.changes {c : Instr} {s t : State} {a : Answer} (ha : a.trigger = .none) (h : s.Change c t)
    (hq : t.agentQueue = s.agentQueue) : State.Sixth c s (t, some a) := .answers ha h.event hq

theorem State.moves_respond {s : State} {m : MgmtSlot} (hq : s.agentQueue.head? = some m) (record : List Byte)
    (fresh : Option (List Byte)) : s.Moves (s.popRequest.respond m record .none fresh) :=
  (Move.respond m record fresh hq).moves

theorem State.moves_refuse {s : State} {m : MgmtSlot} (hq : s.agentQueue.head? = some m) (st : Status) :
    s.Moves (s.popRequest.answer m st [] .none) := moves_respond hq _ _

theorem State.moves_countRefusal (s : State) (st : Status) : s.Moves (s.countRefusal st) := by
  cases st <;> first | exact .refl | exact s.moves_raiseAgent _

theorem State.countRefusal_agentQueue (s : State) (st : Status) : (s.countRefusal st).agentQueue = s.agentQueue := by
  cases st <;> rfl

theorem State.event_carryOut {s : State} {m : MgmtSlot} {c : Instr} {cmd : Command} {six : StepSix}
    (hq : s.agentQueue.head? = some m)
    (hsix : s.rightRefusal cmd m = none → State.Sixth c s (six s m m.args)) :
    State.Event c s (s.carryOut m cmd six) := by
  unfold State.carryOut
  split
  · rename_i st _
    exact ((s.moves_countRefusal st).trans
      (moves_refuse (by rw [State.countRefusal_agentQueue]; exact hq) st)).event
  · rename_i hr
    split
    · exact (moves_refuse hq _).event
    · rcases hsix hr with ⟨t, a, he, ha, hev, hqt⟩ | ⟨a, he, ha⟩ | ⟨t, he, hev⟩ <;> rw [he]
      · dsimp only
        rw [ha]
        exact hev.then_moves (moves_respond (hqt ▸ hq) _ _)
      · exact (Move.respondTrigger m _ a.trigger _ hq ha).moves.event
      · exact hev

theorem State.event_executeRequest {s : State} {m : MgmtSlot} {c : Instr} {cmd : Option Command} {six : StepSix}
    (hq : s.agentQueue.head? = some m)
    (hsix : ∀ k ∈ cmd, ∀ u : State, u.agentQueue.head? = some m → u.rightRefusal k m = none →
      State.Sixth c u (six u m m.args)) : State.Event c s (s.executeRequest m cmd six) := by
  unfold State.executeRequest
  extract_lets s1
  have m1 : s.Moves s1 := s.moves_raiseAgent _
  have h1 : s1.agentQueue.head? = some m := hq
  refine m1.then_event ?_
  split
  · exact ((s1.moves_raiseAgent .replays).trans (moves_respond (s := s1.raiseAgent .replays) h1 _ _)).event
  · cases cmd with
    | none => exact (moves_refuse h1 _).event
    | some k => exact event_carryOut h1 (hsix k rfl s1 h1)

/-- An agent row is an event of its command when step 6 is. -/
theorem State.event_agentRow {c : Instr} {cmd : Option Command} {six : StepSix} (s : State)
    (hsix : ∀ (u : State) (m : MgmtSlot), u.agentQueue.head? = some m → ∀ k ∈ cmd, u.rightRefusal k m = none →
      State.Sixth c u (six u m m.args)) : State.Event c s (s.agentRow cmd six) := by
  unfold State.agentRow
  split
  · exact Moves.event .refl
  · rename_i m rest hq
    split
    · exact event_executeRequest (by rw [hq]; rfl) fun k hk u hu hr => hsix u m hu k hk hr
    · exact Moves.event .refl

/-! ### The manager table (R152, R153) -/

theorem State.changeRight_agentQueue (s : State) (p : Port) (a : Byte) (was r : Right) :
    (s.changeRight p a was r).agentQueue = s.agentQueue := by
  unfold State.changeRight State.dropSession
  dsimp only
  split
  · split <;> rfl
  · rfl

theorem State.sixth_enrolEntry (s : State) (dt : Nat) (en : Bool) (p : Port) {a : Byte} (ha : a ≠ 255) (r : Right) :
    State.Sixth (.enrol dt en) s (s.enrolEntry p a r) := by
  unfold State.enrolEntry
  split
  · rename_i e he
    split
    · exact .same rfl
    · exact .changes rfl (.changeRight dt en p a e r he) (s.changeRight_agentQueue ..)
  · rename_i hnone
    split
    · exact .same rfl
    · exact .changes rfl (.addManager dt en p a r hnone (.inl ha) (by omega)) rfl

/-- R137: a station that is no manager passes step 4 with ENROL only when the table is empty. -/
theorem State.enrol_first {s : State} {m : MgmtSlot} (hm : s.manager m.port m.requester = none)
    (hr : s.rightRefusal .enrol m = none) : s.managers = [] := by
  by_contra hne
  simp [State.rightRefusal, hm, hne] at hr

theorem State.sixth_cmdEnrol {s : State} {m : MgmtSlot} (dt : Nat) (en : Bool)
    (hq : s.agentQueue.head? = some m) (hr : s.rightRefusal .enrol m = none) (args : List Byte) :
    State.Sixth (.enrol dt en) s (s.cmdEnrol m args) := by
  unfold State.cmdEnrol
  split
  · rename_i hnone
    refine .changes rfl (.addManager dt en _ _ _ hnone (.inr ⟨m, List.mem_of_mem_head? hq, rfl⟩) ?_) rfl
    simp [State.enrol_first hnone hr, Config.managerCap]
  · split
    · split
      · exact .same rfl
      · rename_i hne
        exact s.sixth_enrolEntry dt en _ hne _
    · exact .same rfl

theorem State.sixth_cmdDismiss (s : State) (m : MgmtSlot) (dt : Nat) (en : Bool) (args : List Byte) :
    State.Sixth (.dismiss dt en) s (s.cmdDismiss m args) := by
  unfold State.cmdDismiss
  split
  · split
    · exact .same rfl
    · unfold State.dismissEntry
      split
      · exact .same rfl
      · split
        · exact .same rfl
        · refine .changes rfl (.dismiss dt en _ _) ?_
          unfold State.dropSession
          split <;> rfl
  · exact .same rfl

/-! ### The edit session (R41 to R46, R154 to R158) -/

theorem leaseOf_range {b : Byte} (h : b.toNat ≤ 120) : 1 ≤ leaseOf b ∧ leaseOf b ≤ 120 := by
  unfold leaseOf
  split
  · omega
  · rename_i hb
    have : b.toNat ≠ 0 := fun h0 => hb (BitVec.eq_of_toNat_eq h0)
    omega

/-- R136: a manager that passes step 4 with a command that needs WRITE has it. -/
theorem State.writer_of_right {s : State} {m : MgmtSlot} {k : Command} (hr : s.rightRefusal k m = none)
    (hk : k.needsWrite = true) (he : k ≠ .enrol) : ∃ e, s.manager m.port m.requester = some e ∧ e.right = .write := by
  unfold State.rightRefusal at hr
  cases hm : s.manager m.port m.requester with
  | none => cases k <;> simp_all [Command.needsWrite]
  | some e => cases hw : e.right <;> simp_all

theorem State.openSession_agentQueue (s : State) (m : MgmtSlot) (secs : Nat) (mode : StartMode) :
    (s.openSession m secs mode).agentQueue = s.agentQueue := by simp [State.openSession]

theorem State.sixth_cmdOpenEdit {s : State} {m : MgmtSlot} (dt : Nat) (hr : s.rightRefusal .openEdit m = none)
    (args : List Byte) : State.Sixth (.openEdit dt) s (s.cmdOpenEdit m args) := by
  obtain ⟨e, he, hw⟩ := State.writer_of_right hr rfl (by simp)
  unfold State.cmdOpenEdit
  split
  · exact .same rfl
  · split
    · exact .same rfl
    · rename_i hle
      obtain ⟨h1, h2⟩ := leaseOf_range (b := byteAt args 0) (by omega)
      split
      · split
        · exact .changes rfl (.openSession dt m _ _ e he hw h1 h2) (s.openSession_agentQueue ..)
        · exact .same rfl
      · exact .changes rfl (.openSession dt m _ _ e he hw h1 h2) (s.openSession_agentQueue ..)

theorem State.moves_refreshLease (s : State) : s.Moves s.refreshLease := by
  refine (Move.session _ fun e he => ?_).moves
  obtain ⟨d, hd, rfl⟩ := Option.map_eq_some_iff.mp he
  exact ⟨d, hd, rfl, rfl, rfl⟩

/-- A command that refreshes the lease, makes its change and answers. -/
theorem State.Sixth.leased {c : Instr} {s t : State} {a : Answer} (ha : a.trigger = .none)
    (h : t = s.refreshLease ∨ s.refreshLease.Change c t) (hq : t.agentQueue = s.agentQueue) :
    State.Sixth c s (t, some a) := by
  refine .answers ha (s.moves_refreshLease.then_event ?_) hq
  rcases h with rfl | h
  · exact Moves.event .refl
  · exact h.event

theorem State.sixth_cmdWriteRule (s : State) (m : MgmtSlot) (dt : Nat) (args : List Byte) :
    State.Sixth (.writeRule dt) s (s.cmdWriteRule m args) := by
  unfold State.cmdWriteRule
  split
  · split
    · split
      · exact .leased rfl (.inr (.writeRule dt _ _)) (by simp [State.refreshLease])
      · exact .leased rfl (.inl rfl) rfl
    · exact .leased rfl (.inl rfl) rfl
  · exact .same rfl

theorem State.sixth_cmdWriteProfile (s : State) (m : MgmtSlot) (dt : Nat) (args : List Byte) :
    State.Sixth (.writeProfile dt) s (s.cmdWriteProfile m args) := by
  unfold State.cmdWriteProfile
  split
  · split
    · split
      · exact .leased rfl (.inr (.writeProfile dt _ _)) (by simp [State.refreshLease])
      · exact .leased rfl (.inl rfl) rfl
    · exact .leased rfl (.inl rfl) rfl
  · exact .same rfl

theorem State.sixth_takeCommit {s : State} {m : MgmtSlot} (dt : Nat) (hq : s.agentQueue.head? = some m)
    (hf : s.fence = none) (mode : CommitMode) (timeout : Nat) :
    State.Sixth (.commit dt) s (s.takeCommit m mode timeout) := by
  have swapped : State.Event (.commit dt) s s.swapBanks :=
    (Change.swap dt hf).event.then_moves (moves_raiseAgent _ .commits)
  unfold State.takeCommit
  extract_lets s1
  cases mode with
  | swap => exact .answers rfl swapped rfl
  | fence =>
    dsimp only
    split
    · exact .answers rfl swapped rfl
    · rename_i hold
      exact .inr (.inr ⟨_, rfl, swapped.then_moves (Move.hold (s := s1) m _ hq hf hold).moves⟩)

theorem State.sixth_cmdCommit {s : State} {m : MgmtSlot} (dt : Nat) (hq : s.agentQueue.head? = some m)
    (args : List Byte) : State.Sixth (.commit dt) s (s.cmdCommit m args) := by
  unfold State.cmdCommit
  split
  · exact .same rfl
  · split
    · exact .same rfl
    · rename_i hf
      split
      · split
        · exact sixth_takeCommit dt hq (by simpa using hf) _ _
        · exact .same rfl
      · exact .same rfl

theorem State.sixth_cmdAbandon (s : State) (m : MgmtSlot) (dt : Nat) (args : List Byte) :
    State.Sixth (.abandon dt) s (s.cmdAbandon m args) := by
  unfold State.cmdAbandon
  split
  · exact .answers rfl s.moves_noSession.event rfl
  · exact .same rfl

/-! ### Reading, setting and restarting (R159 to R170) -/

theorem State.sixth_cmdReadRule (s : State) (m : MgmtSlot) (dt : Nat) (args : List Byte) :
    State.Sixth (.readRule dt) s (s.cmdReadRule m args) := by
  unfold State.cmdReadRule
  split
  · exact .same rfl
  · split <;> exact .same rfl

theorem State.sixth_cmdReadProfile (s : State) (m : MgmtSlot) (dt : Nat) (args : List Byte) :
    State.Sixth (.readProfile dt) s (s.cmdReadProfile m args) := by
  unfold State.cmdReadProfile
  split
  · exact .same rfl
  · split <;> exact .same rfl

theorem State.sixth_cmdReadHits (s : State) (m : MgmtSlot) (dt : Nat) (args : List Byte) :
    State.Sixth (.readHits dt) s (s.cmdReadHits m args) := by
  unfold State.cmdReadHits
  split
  · split
    · split
      · exact .changes rfl (.zeroHits dt _ _ _) (by simp)
      · exact .same rfl
    · exact .same rfl
  · exact .same rfl

theorem be16At_le (b : List Byte) (i : Nat) : be16At b i ≤ 65535 := by
  have h1 := (byteAt b i).isLt
  have h2 := (byteAt b (i + 1)).isLt
  unfold be16At
  omega

theorem State.sixth_cmdSetMeter (s : State) (m : MgmtSlot) (dt : Nat) (args : List Byte) :
    State.Sixth (.setMeter dt) s (s.cmdSetMeter m args) := by
  unfold State.cmdSetMeter
  split
  · split
    · rename_i hi
      refine .answers rfl (Move.meters _ fun i hm => ?_).moves.event rfl
      simp only [Fin.getElem_fin, Vector.getElem_set]
      split
      · exact ⟨Nat.le_refl _, be16At_le args 1, be16At_le args 3, hi.1, hi.2⟩
      · exact hm
    · exact .same rfl
  · exact .same rfl

theorem State.sixth_cmdReadMeter (s : State) (m : MgmtSlot) (dt : Nat) (args : List Byte) :
    State.Sixth (.readMeter dt) s (s.cmdReadMeter m args) := by
  unfold State.cmdReadMeter
  split <;> exact .same rfl

theorem State.sixth_cmdSetPort (s : State) (m : MgmtSlot) (dt : Nat) (args : List Byte) :
    State.Sixth (.setPort dt) s (s.cmdSetPort m args) := by
  unfold State.cmdSetPort
  split
  · exact .same rfl
  · split
    · rename_i h
      exact .changes rfl (.setPort dt _ _ h.1 h.2) (by simp)
    · exact .same rfl

theorem State.sixth_cmdReadPort (s : State) (m : MgmtSlot) (dt : Nat) (args : List Byte) :
    State.Sixth (.readPort dt) s (s.cmdReadPort m args) := by
  unfold State.cmdReadPort
  split <;> exact .same rfl

theorem State.sixth_cmdReadCounters (s : State) (m : MgmtSlot) (dt : Nat) (args : List Byte) :
    State.Sixth (.readCounters dt) s (s.cmdReadCounters m args) := by
  unfold State.cmdReadCounters
  split
  · rename_i g zero _ _
    split
    · refine .changes rfl (.zeroGroup dt g) ?_
      cases g <;> simp [State.zeroGroup]
    · exact .same rfl
  · exact .same rfl

theorem State.sixth_cmdRestartPort (s : State) (m : MgmtSlot) (dt : Nat) (args : List Byte) :
    State.Sixth (.restartPort dt) s (s.cmdRestartPort m args) := by
  unfold State.cmdRestartPort
  split
  · exact .same rfl
  · exact .inr (.inl ⟨_, rfl, by simp⟩)

/-! ### The dispatch -/

/-- What a command does, said once: time passes, and what follows is an event of that command. -/
theorem exec_event {c : Instr} {s t : State} (hc : isPowerOn c = false) (h : exec c s = .next t) :
    State.Event c (s.elapse (dtOf c)) t := by
  cases c <;> cases h
  case powerOnReset => cases hc
  case frameEnd dt p => exact State.event_frameEnds _ dt p
  case replyGapReached dt p => exact (State.moves_startReply _ p).event
  case replySent dt p => exact (State.moves_completeReply _ p).event
  case replyCollision dt p k => exact (State.moves_collideReply _ p k).event
  case replyAbandoned dt p => exact (State.moves_startBitInOwe _ p).event
  case selection dt p => exact (State.moves_select _ p).event
  case gapReached dt p => exact (State.moves_reachGap _ p).event
  case deferExhausted dt p => exact (State.moves_exhaustDefer _ p).event
  case sendComplete dt p => exact (State.moves_completeSend _ p).event
  case collision dt p k => exact (State.moves_collide _ p k).event
  case backoffEnd dt p => exact (State.moves_endBackoff _ p).event
  case noReply dt p => exact (State.moves_exhaustWait _ p).event
  case busyHoldEnd dt p => exact (State.moves_endBusyHold _ p).event
  case fenced dt p => exact (State.moves_obeyMark _ p).event
  case meterRefill dt m => exact (State.moves_refillMeter _ m).event
  case leaseLapse dt => exact (State.moves_lapse _).event
  case fenceTimeout dt => exact (State.moves_timeOutFence _).event
  case byteReceived dt p act =>
    dsimp only [dtOf]
    split
    · exact State.Moves.event .refl
    · exact (State.moves_receiveActivity _ p act).event
  case identify dt => exact State.event_agentRow _ fun _ _ _ _ _ _ => .same rfl
  case enrol dt en =>
    refine (State.Move.pins _).moves.then_event (State.event_agentRow _ fun u m hq k hk hr => ?_)
    obtain rfl : _ = k := Option.some.inj hk
    exact State.sixth_cmdEnrol dt en hq hr _
  case dismiss dt en =>
    exact (State.Move.pins _).moves.then_event
      (State.event_agentRow _ fun u m _ _ _ _ => u.sixth_cmdDismiss m dt en _)
  case openEdit dt =>
    refine State.event_agentRow _ fun u m hq k hk hr => ?_
    obtain rfl : _ = k := Option.some.inj hk
    exact State.sixth_cmdOpenEdit dt hr _
  case writeRule dt => exact State.event_agentRow _ fun u m _ _ _ _ => u.sixth_cmdWriteRule m dt _
  case writeProfile dt => exact State.event_agentRow _ fun u m _ _ _ _ => u.sixth_cmdWriteProfile m dt _
  case commit dt => exact State.event_agentRow _ fun u m hq _ _ _ => State.sixth_cmdCommit dt hq _
  case abandon dt => exact State.event_agentRow _ fun u m _ _ _ _ => u.sixth_cmdAbandon m dt _
  case readRule dt => exact State.event_agentRow _ fun u m _ _ _ _ => u.sixth_cmdReadRule m dt _
  case readProfile dt => exact State.event_agentRow _ fun u m _ _ _ _ => u.sixth_cmdReadProfile m dt _
  case readHits dt => exact State.event_agentRow _ fun u m _ _ _ _ => u.sixth_cmdReadHits m dt _
  case setMeter dt => exact State.event_agentRow _ fun u m _ _ _ _ => u.sixth_cmdSetMeter m dt _
  case readMeter dt => exact State.event_agentRow _ fun u m _ _ _ _ => u.sixth_cmdReadMeter m dt _
  case setPort dt => exact State.event_agentRow _ fun u m _ _ _ _ => u.sixth_cmdSetPort m dt _
  case readPort dt => exact State.event_agentRow _ fun u m _ _ _ _ => u.sixth_cmdReadPort m dt _
  case readCounters dt => exact State.event_agentRow _ fun u m _ _ _ _ => u.sixth_cmdReadCounters m dt _
  case readStore dt => exact State.event_agentRow _ fun _ _ _ _ _ _ => .same rfl
  case restartPort dt => exact State.event_agentRow _ fun u m _ _ _ _ => u.sixth_cmdRestartPort m dt _
  case restart dt => exact State.event_agentRow _ fun u m _ _ _ _ => .inr (.inl ⟨_, rfl, by simp⟩)
  case unknownCommand dt => exact State.event_agentRow _ fun _ _ _ k hk _ => by cases hk

/-! ### What a step keeps -/

/-- A property that power-on reset establishes and that the passing of time, every move and every change keep is kept
by every step. -/
theorem step_keeps {P : State → Prop} (htime : ∀ (s : State) (d : Nat) (rest : List Instr), P s →
      P { s with clock := s.clock + d, pending := rest })
    (hmove : ∀ {s t : State}, P s → s.Move t → P t) (hchange : ∀ {c : Instr} {s t : State}, P s → s.Change c t → P t)
    (hreset : ∀ (q : Pins) (rest : List Instr), P { State.powerOn q with pending := rest })
    {s t : State} (hs : P s) (h : step s = .next t) : P t := by
  have hmoves : ∀ {u v : State}, P u → u.Moves v → P v := by
    intro u v hu hm
    induction hm with
    | refl => exact hu
    | tail _ hlast ih => exact hmove ih hlast
  unfold step at h
  split at h
  · cases h
    exact htime s 1 s.pending hs
  · rename_i c rest _
    cases hc : isPowerOn c with
    | true =>
      cases c <;> cases hc
      cases h
      exact hreset _ rest
    | false =>
      obtain ⟨u, v, h1, h2, h3⟩ := exec_event hc h
      refine hmoves ?_ h3
      have hu : P u := hmoves (htime s (dtOf c) rest hs) h1
      rcases h2 with rfl | h2
      · exact hu
      · exact hchange hu h2

end Sys2Proof.Machine
end

section
/-! PROOF. What each move does to the slots of the frame store and to the fields the invariants read: one law for each
move and each kind of count. -/

namespace Sys2Proof.Machine

/-! ### What answering leaves alone (R68, R142) -/

section Answering
variable (s : State) (m : MgmtSlot) (record : List Byte) (t : Trigger) (fresh : Option (List Byte))

/-- A tag record changes the managers alone. -/
theorem State.recordTag_eq : s.recordTag m fresh = { s with managers := (s.recordTag m fresh).managers } := by
  unfold State.recordTag
  split <;> rfl

theorem State.respond_eq : s.respond m record t fresh =
    { s.enqueue m.port .normal (.mgmt (s.response m record t)) with
      managers := (s.respond m record t fresh).managers } := State.recordTag_eq _ _ _

theorem State.respond_port (r : Port) : (s.respond m record t fresh).port r =
    (s.enqueue m.port .normal (.mgmt (s.response m record t))).port r := by
  rw [State.respond_eq]; cases r <;> rfl

@[simp] theorem State.respond_clock : (s.respond m record t fresh).clock = s.clock := by
  rw [State.respond_eq]; simp [State.enqueue]
@[simp] theorem State.respond_active : (s.respond m record t fresh).active = s.active := by
  rw [State.respond_eq]; simp [State.enqueue]
@[simp] theorem State.respond_bankX : (s.respond m record t fresh).bankX = s.bankX := by
  rw [State.respond_eq]; simp [State.enqueue]
@[simp] theorem State.respond_bankY : (s.respond m record t fresh).bankY = s.bankY := by
  rw [State.respond_eq]; simp [State.enqueue]
@[simp] theorem State.respond_commitCount : (s.respond m record t fresh).commitCount = s.commitCount := by
  rw [State.respond_eq]; simp [State.enqueue]
@[simp] theorem State.respond_session : (s.respond m record t fresh).session = s.session := by
  rw [State.respond_eq]; simp [State.enqueue]
@[simp] theorem State.respond_fence : (s.respond m record t fresh).fence = s.fence := by
  rw [State.respond_eq]; simp [State.enqueue]
@[simp] theorem State.respond_meters : (s.respond m record t fresh).meters = s.meters := by
  rw [State.respond_eq]; simp [State.enqueue]
@[simp] theorem State.respond_agentQueue : (s.respond m record t fresh).agentQueue = s.agentQueue := by
  rw [State.respond_eq]; simp [State.enqueue]
@[simp] theorem State.respond_restartPending : (s.respond m record t fresh).restartPending = s.restartPending := by
  rw [State.respond_eq]; simp [State.enqueue]
@[simp] theorem State.respond_agentCounters : (s.respond m record t fresh).agentCounters = s.agentCounters := by
  rw [State.respond_eq]; simp [State.enqueue]

end Answering

/-! ### What the end of a fence leaves alone (R52, R53, R73) -/

section Fences
variable (s : State) (f : Fence) (st : Status) (n : Nat) (wasOld : Bool)

@[simp] theorem State.endFence_clock : (s.endFence f st n).clock = s.clock := by simp [State.endFence_eq]
@[simp] theorem State.endFence_active : (s.endFence f st n).active = s.active := by simp [State.endFence_eq]
@[simp] theorem State.endFence_bankX : (s.endFence f st n).bankX = s.bankX := by simp [State.endFence_eq]
@[simp] theorem State.endFence_bankY : (s.endFence f st n).bankY = s.bankY := by simp [State.endFence_eq]
@[simp] theorem State.endFence_commitCount : (s.endFence f st n).commitCount = s.commitCount := by
  simp [State.endFence_eq]
@[simp] theorem State.endFence_session : (s.endFence f st n).session = s.session := by simp [State.endFence_eq]
@[simp] theorem State.endFence_fence : (s.endFence f st n).fence = none := by simp [State.endFence_eq]
@[simp] theorem State.endFence_meters : (s.endFence f st n).meters = s.meters := by simp [State.endFence_eq]
@[simp] theorem State.endFence_agentQueue : (s.endFence f st n).agentQueue = s.agentQueue := by
  simp [State.endFence_eq]
@[simp] theorem State.endFence_restartPending : (s.endFence f st n).restartPending = s.restartPending := by
  simp [State.endFence_eq]
@[simp] theorem State.endFence_agentCounters : (s.endFence f st n).agentCounters = s.agentCounters := by
  simp [State.endFence_eq]

@[simp] theorem State.reportFreed_clock : (s.reportFreed wasOld).clock = s.clock := by
  rcases s.reportFreed_cases wasOld with h | ⟨f, -, -, -, h⟩ <;> simp [h]
@[simp] theorem State.reportFreed_active : (s.reportFreed wasOld).active = s.active := by
  rcases s.reportFreed_cases wasOld with h | ⟨f, -, -, -, h⟩ <;> simp [h]
@[simp] theorem State.reportFreed_bankX : (s.reportFreed wasOld).bankX = s.bankX := by
  rcases s.reportFreed_cases wasOld with h | ⟨f, -, -, -, h⟩ <;> simp [h]
@[simp] theorem State.reportFreed_bankY : (s.reportFreed wasOld).bankY = s.bankY := by
  rcases s.reportFreed_cases wasOld with h | ⟨f, -, -, -, h⟩ <;> simp [h]
@[simp] theorem State.reportFreed_commitCount : (s.reportFreed wasOld).commitCount = s.commitCount := by
  rcases s.reportFreed_cases wasOld with h | ⟨f, -, -, -, h⟩ <;> simp [h]
@[simp] theorem State.reportFreed_session : (s.reportFreed wasOld).session = s.session := by
  rcases s.reportFreed_cases wasOld with h | ⟨f, -, -, -, h⟩ <;> simp [h]
@[simp] theorem State.reportFreed_meters : (s.reportFreed wasOld).meters = s.meters := by
  rcases s.reportFreed_cases wasOld with h | ⟨f, -, -, -, h⟩ <;> simp [h]
@[simp] theorem State.reportFreed_agentQueue : (s.reportFreed wasOld).agentQueue = s.agentQueue := by
  rcases s.reportFreed_cases wasOld with h | ⟨f, -, -, -, h⟩ <;> simp [h]
@[simp] theorem State.reportFreed_restartPending : (s.reportFreed wasOld).restartPending = s.restartPending := by
  rcases s.reportFreed_cases wasOld with h | ⟨f, -, -, -, h⟩ <;> simp [h]
@[simp] theorem State.reportFreed_agentCounters : (s.reportFreed wasOld).agentCounters = s.agentCounters := by
  rcases s.reportFreed_cases wasOld with h | ⟨f, -, -, -, h⟩ <;> simp [h]

end Fences

/-! ### Everything of a port but the normal queue -/

/-- Two ports that differ in their normal queues at most. -/
def PortState.SameButNormal (x y : PortState) : Prop := y = { x with normal := y.normal }

theorem State.enqueue_normal_port (s : State) (e : Port) (x : Slot) (r : Port) :
    ((s.port r).SameButNormal ((s.enqueue e .normal x).port r)) := by
  cases e <;> cases r <;> rfl

theorem State.respond_sameButNormal (s : State) (m : MgmtSlot) (record : List Byte) (t : Trigger)
    (fresh : Option (List Byte)) (r : Port) : (s.port r).SameButNormal ((s.respond m record t fresh).port r) := by
  rw [State.respond_port]
  exact s.enqueue_normal_port _ _ r

theorem State.endFence_sameButNormal (s : State) (f : Fence) (st : Status) (n : Nat) (r : Port) :
    (s.port r).SameButNormal ((s.endFence f st n).port r) := by
  have h := State.respond_sameButNormal { s with fence := none } f.holder
    (responseRecord f.holder.tag f.holder.code st (s.commitResult n)) .none
    (some (responseRecord f.holder.tag f.holder.code st (s.commitResult n))) r
  cases r <;> exact h

theorem State.reportFreed_sameButNormal (s : State) (b : Bool) (r : Port) :
    (s.port r).SameButNormal ((s.reportFreed b).port r) := by
  rcases s.reportFreed_cases b with h | ⟨f, -, -, -, h⟩ <;> rw [h]
  · rfl
  · exact s.endFence_sameButNormal f _ _ r

/-! ### Counts of slots -/

/-- The slots of port `r` that satisfy `q`. -/
def State.countAt (s : State) (q : Slot → Bool) (r : Port) : Nat := (s.port r).slots.countP q

theorem State.countAt_congr {s t : State} {q : Slot → Bool} {r : Port} (h : t.port r = s.port r) :
    t.countAt q r = s.countAt q r := by rw [State.countAt, h, State.countAt]

theorem PortState.countP_slots (x : PortState) (q : Slot → Bool) :
    x.slots.countP q = x.urgent.countP q + x.normal.countP q + x.tx.pos.toList.countP q := by
  simp only [PortState.slots, List.countP_append]

/-- The predicate is blind to a slot's sequence and mark. -/
def Slot.Blind (q : Slot → Bool) : Prop := ∀ g, Slot.Relabels g → ∀ y, q (g y) = q y

theorem Slot.blind_isData : Slot.Blind Slot.isData := fun _ hg y => (hg y).1
theorem Slot.blind_isMgmt : Slot.Blind fun y => !y.isData := fun _ hg y => congrArg Bool.not (hg y).1
theorem Slot.blind_isRequest : Slot.Blind Slot.isRequest := fun _ hg y => (hg y).2.1
theorem Slot.blind_hasTrigger : Slot.Blind Slot.hasTrigger := fun _ hg y => (hg y).2.2.1
theorem Slot.blind_isOld (c : Count) : Slot.Blind (Slot.isOld c) := fun _ hg y => (hg y).2.2.2 c

theorem PortState.Quiet.countP {x y : PortState} (h : x.Quiet y) {q : Slot → Bool} (hq : Slot.Blind q) :
    y.slots.countP q = x.slots.countP q := by
  obtain ⟨g, hg, hp⟩ := h.pos
  rw [PortState.countP_slots, PortState.countP_slots, h.urgent, h.normal, hp]
  cases x.tx.pos with
  | none => rfl
  | some z => simp [hq g hg z]

theorem State.countAt_quiet {s : State} {p : Port} {f : PortState → PortState}
    (h : (s.port p).Quiet (f (s.port p))) {q : Slot → Bool} (hq : Slot.Blind q) (r : Port) :
    (s.modPort p f).countAt q r = s.countAt q r := by
  unfold State.countAt
  rw [State.port_modPort]
  split
  · rename_i hr
    rw [hr, h.countP hq]
  · rfl

theorem State.countAt_vacate (s : State) (p : Port) (q : Slot → Bool) (r : Port) :
    s.countAt q r = (s.vacate p).countAt q r + if r = p then (s.port p).tx.pos.toList.countP q else 0 := by
  unfold State.countAt State.vacate State.modTx
  rw [State.port_modPort]
  split
  · rename_i hr
    rw [hr, PortState.countP_slots, PortState.countP_slots]
    rfl
  · rfl

theorem State.countAt_enqueue (s : State) (e : Port) (c : QueueChoice) (x : Slot) (q : Slot → Bool) (r : Port) :
    (s.enqueue e c x).countAt q r = s.countAt q r + if r = e ∧ q x = true then 1 else 0 := by
  unfold State.countAt State.enqueue
  rw [State.port_modPort]
  by_cases hr : r = e
  · rw [if_pos hr, hr, PortState.countP_slots, PortState.countP_slots]
    cases c <;> by_cases hx : q x = true <;> simp [List.countP_append, hx] <;> omega
  · rw [if_neg hr]
    simp [hr]

theorem State.countAt_respond (s : State) (m : MgmtSlot) (record : List Byte) (t : Trigger)
    (fresh : Option (List Byte)) (q : Slot → Bool) (r : Port) :
    (s.respond m record t fresh).countAt q r =
      s.countAt q r + if r = m.port ∧ q (.mgmt (s.response m record t)) = true then 1 else 0 := by
  rw [← State.countAt_enqueue (c := .normal), State.countAt, State.respond_port, State.countAt]

/-- The answer of a fence, a response with no trigger, joins the normal queue of the holder's port. -/
theorem State.countAt_endFence (s : State) (f : Fence) (st : Status) (n : Nat) (q : Slot → Bool) (r : Port) :
    (s.endFence f st n).countAt q r =
      s.countAt q r +
        if r = f.holder.port ∧
          q (.mgmt (s.response f.holder (responseRecord f.holder.tag f.holder.code st (s.commitResult n)) .none)) = true
        then 1 else 0 := by
  have h := State.countAt_respond { s with fence := none } f.holder
    (responseRecord f.holder.tag f.holder.code st (s.commitResult n)) .none
    (some (responseRecord f.holder.tag f.holder.code st (s.commitResult n))) q r
  have hresp : ({ s with fence := none } : State).response f.holder
      (responseRecord f.holder.tag f.holder.code st (s.commitResult n)) .none =
        s.response f.holder (responseRecord f.holder.tag f.holder.code st (s.commitResult n)) .none := by
    unfold State.response
    cases f.holder.port <;> rfl
  have hcount : ({ s with fence := none } : State).countAt q r = s.countAt q r :=
    State.countAt_congr (by cases r <;> rfl)
  rw [hresp, hcount] at h
  exact h

/-- The predicate does not hold of a response without a restart trigger. -/
def Slot.Ignores (q : Slot → Bool) : Prop := ∀ m : MgmtSlot, m.kind = .response → m.trigger = .none → q (.mgmt m) = false

theorem Slot.ignores_isData : Slot.Ignores Slot.isData := fun _ _ _ => rfl
theorem Slot.ignores_hasTrigger : Slot.Ignores Slot.hasTrigger := fun _ _ h => by simp [Slot.hasTrigger, h]

theorem State.countAt_endFence_ignored (s : State) (f : Fence) (st : Status) (n : Nat) {q : Slot → Bool}
    (hq : Slot.Ignores q) (r : Port) : (s.endFence f st n).countAt q r = s.countAt q r := by
  rw [State.countAt_endFence, if_neg (by rw [hq _ rfl rfl]; simp), Nat.add_zero]

theorem State.countAt_reportFreed (s : State) (b : Bool) {q : Slot → Bool} (hq : Slot.Ignores q) (r : Port) :
    (s.reportFreed b).countAt q r = s.countAt q r := by
  rcases s.reportFreed_cases b with h | ⟨f, -, -, -, h⟩ <;> rw [h]
  exact s.countAt_endFence_ignored f _ _ hq r

/-- R113: what the taking up of the head leaves: the port's slots but the one that stood in the position. -/
theorem PortState.head_countP {x y : PortState} {h : Slot} (hh : x.head = some (h, y)) (q : Slot → Bool) :
    x.slots.countP q = y.urgent.countP q + y.normal.countP q + (if q h = true then 1 else 0) +
      x.tx.pos.toList.countP q := by
  rw [PortState.countP_slots]
  unfold PortState.head at hh
  split at hh
  · rename_i hu
    cases hh
    simp only [hu, List.countP_cons]
    omega
  · rename_i hu hn
    cases hh
    simp only [hu, hn, List.countP_cons, List.countP_nil]
    omega
  · cases hh

/-- Taking up the head changes the queues and the transmit path of its port alone. -/
theorem PortState.head_eq {x y : PortState} {h : Slot} (hh : x.head = some (h, y)) :
    y = { x with urgent := y.urgent, normal := y.normal } := by
  unfold PortState.head at hh
  split at hh <;> cases hh <;> rfl

theorem State.countAt_lifted {s : State} {p : Port} {h : Slot} {x : PortState} (hh : (s.port p).head = some (h, x))
    (q : Slot → Bool) (r : Port) :
    s.countAt q r = (s.lifted p h x).countAt q r + if r = p then (s.port p).tx.pos.toList.countP q else 0 := by
  unfold State.countAt State.lifted
  rw [State.port_modPort]
  split
  · rename_i hr
    rw [hr, PortState.head_countP hh, PortState.countP_slots]
    simp
  · rfl

/-! ### Restarts and the flush of a fence -/

/-- What a port restart is before a pending fence hears of it. -/
def State.restartedAt (s : State) (p : Port) : State :=
  { ((s.raiseFlushed p).modPort p (PortState.restarted (s.cutOff p))).raiseAgent .portRestarts with
    agentQueue := s.agentQueue.filter fun m => m.port != p
    managers := clearPending (· == p) s.managers
    restartPending := s.restartPending - (s.port p).slots.countP Slot.hasTrigger }

theorem State.portRestart_eq (s : State) (p : Port) :
    s.portRestart p = (s.restartedAt p).reportFreed ((s.port p).slots.any (Slot.isOld s.commitCount)) := rfl

theorem State.restartedAt_port (s : State) (p r : Port) : (s.restartedAt p).port r =
    if r = p then
      (((s.raiseFlushed p).port p).restarted (s.cutOff p)) else s.port r := by
  cases p <;> cases r <;> rfl

theorem State.countAt_restartedAt (s : State) (p : Port) (q : Slot → Bool) (r : Port) :
    (s.restartedAt p).countAt q r = if r = p then 0 else s.countAt q r := by
  unfold State.countAt
  rw [State.restartedAt_port]
  split <;> rfl

theorem State.countAt_portRestart (s : State) (p : Port) {q : Slot → Bool} (hq : Slot.Ignores q) (r : Port) :
    (s.portRestart p).countAt q r = if r = p then 0 else s.countAt q r := by
  rw [State.portRestart_eq, State.countAt_reportFreed _ _ hq, State.countAt_restartedAt]

theorem State.softRestart_port (s : State) (r : Port) : (s.softRestart).port r =
    ((((s.raiseFlushed .A).raiseFlushed .B).raiseAgent .restarts).port r).restarted (s.cutOff r) := by
  cases r <;> rfl

theorem State.countAt_softRestart (s : State) (q : Slot → Bool) (r : Port) : s.softRestart.countAt q r = 0 := by
  unfold State.countAt
  rw [State.softRestart_port]
  rfl

/-- R53: marking the old slot of a position leaves it what it is. -/
theorem Slot.Relabels.markOld (c : Count) : Slot.Relabels (Slot.markOld c) := by
  rintro (d | m)
  · by_cases h : d.epoch = c <;> simp [Slot.markOld, h, Slot.isData, Slot.isRequest, Slot.hasTrigger, Slot.isOld]
  · exact ⟨rfl, rfl, rfl, fun _ => rfl⟩

theorem PortState.countP_fenceFlush (x : PortState) (c : Count) {q : Slot → Bool} (hq : Slot.Blind q) :
    (x.fenceFlush c).slots.countP q = (x.urgent.filter fun y => !y.isOld c).countP q +
      (x.normal.filter fun y => !y.isOld c).countP q + x.tx.pos.toList.countP q := by
  rw [PortState.countP_slots]
  congr 1
  cases hp : x.tx.pos with
  | none => simp [PortState.fenceFlush, hp]
  | some z => simp [PortState.fenceFlush, hp, hq _ (Slot.Relabels.markOld c) z]

theorem PortState.countP_fenceFlush_le (x : PortState) (c : Count) {q : Slot → Bool} (hq : Slot.Blind q) :
    (x.fenceFlush c).slots.countP q ≤ x.slots.countP q := by
  rw [PortState.countP_fenceFlush _ _ hq, PortState.countP_slots]
  have hu := (List.filter_sublist (p := fun y => !y.isOld c) (l := x.urgent)).countP_le (p := q)
  have hn := (List.filter_sublist (p := fun y => !y.isOld c) (l := x.normal)).countP_le (p := q)
  omega

theorem countP_filter_of_imp {α : Type} {q k : α → Bool} (h : ∀ y, q y = true → k y = true) (l : List α) :
    (l.filter k).countP q = l.countP q := by
  rw [List.countP_filter]
  congr 1
  funext y
  cases hy : q y
  · rfl
  · simp [h y hy]

/-- The flush takes only old slots away, which are of data origin. -/
theorem PortState.countP_fenceFlush_eq (x : PortState) (c : Count) {q : Slot → Bool} (hq : Slot.Blind q)
    (hm : ∀ y, q y = true → y.isData = false) : (x.fenceFlush c).slots.countP q = x.slots.countP q := by
  have hkeep : ∀ y, q y = true → (!y.isOld c) = true := by
    intro y hy
    cases y with
    | data d => exact absurd (hm _ hy) (by simp [Slot.isData])
    | mgmt m => rfl
  rw [PortState.countP_fenceFlush _ _ hq, PortState.countP_slots, countP_filter_of_imp hkeep,
    countP_filter_of_imp hkeep]

theorem State.flushed_port (s : State) (r : Port) : ∃ n, s.flushed.port r =
    { (s.port r).fenceFlush s.commitCount with
      tx := { ((s.port r).fenceFlush s.commitCount).tx with
        counters := raiseAt (s.port r).tx.counters TxCounter.fenced.index n } } := by
  cases r
  · exact ⟨_, rfl⟩
  · exact ⟨_, rfl⟩

theorem State.countAt_flushed (s : State) {q : Slot → Bool} (r : Port) :
    s.flushed.countAt q r = ((s.port r).fenceFlush s.commitCount).slots.countP q := by
  obtain ⟨n, h⟩ := s.flushed_port r
  rw [State.countAt, h]
  rfl

end Sys2Proof.Machine
end

section
/-! PROOF. The invariants of the frame store: its caps, the kinds of its places, the drivers, the old set of a fence and
the restart-pending mark (R58 to R66, R73, R109, R112, R144). Each is kept by every move and every change. -/

namespace Sys2Proof.Machine

/-! ### Sums of counts -/

def Slot.isMgmt (y : Slot) : Bool := !y.isData

/-- The slots in queues and positions that satisfy `q`. -/
def State.countSlots (s : State) (q : Slot → Bool) : Nat := s.countAt q .A + s.countAt q .B

theorem State.dataAt_eq (s : State) (r : Port) : s.dataAt r = s.countAt Slot.isData r := rfl
theorem State.dataCount_eq (s : State) : s.dataCount = s.countSlots Slot.isData := rfl
theorem State.mgmtCount_eq (s : State) : s.mgmtCount =
    s.countSlots Slot.isMgmt + s.agentQueue.length + if s.fence.isSome then 1 else 0 := rfl
theorem State.oldCount_eq (s : State) : s.oldCount = s.countSlots (Slot.isOld s.commitCount) := rfl
theorem State.triggerCount_eq (s : State) : s.triggerCount = s.countSlots Slot.hasTrigger := rfl

theorem State.countSlots_congr {s t : State} {q : Slot → Bool} (h : ∀ r, t.countAt q r = s.countAt q r) :
    t.countSlots q = s.countSlots q := by rw [State.countSlots, h, h, State.countSlots]

theorem State.countSlots_vacate (s : State) (p : Port) (q : Slot → Bool) :
    s.countSlots q = (s.vacate p).countSlots q + (s.port p).tx.pos.toList.countP q := by
  have hA := s.countAt_vacate p q .A
  have hB := s.countAt_vacate p q .B
  unfold State.countSlots
  cases p <;> simp at hA hB ⊢ <;> omega

theorem State.countSlots_lifted {s : State} {p : Port} {h : Slot} {x : PortState}
    (hh : (s.port p).head = some (h, x)) (q : Slot → Bool) :
    s.countSlots q = (s.lifted p h x).countSlots q + (s.port p).tx.pos.toList.countP q := by
  have hA := State.countAt_lifted hh q .A
  have hB := State.countAt_lifted hh q .B
  unfold State.countSlots
  cases p <;> simp at hA hB ⊢ <;> omega

theorem State.countSlots_enqueue (s : State) (e : Port) (c : QueueChoice) (x : Slot) (q : Slot → Bool) :
    (s.enqueue e c x).countSlots q = s.countSlots q + if q x = true then 1 else 0 := by
  unfold State.countSlots
  rw [State.countAt_enqueue, State.countAt_enqueue]
  cases e <;> simp <;> omega

theorem State.countSlots_respond (s : State) (m : MgmtSlot) (record : List Byte) (t : Trigger)
    (fresh : Option (List Byte)) (q : Slot → Bool) :
    (s.respond m record t fresh).countSlots q =
      s.countSlots q + if q (.mgmt (s.response m record t)) = true then 1 else 0 := by
  rw [← State.countSlots_enqueue (e := m.port) (c := .normal)]
  exact State.countSlots_congr fun r => by rw [State.countAt_respond, State.countAt_enqueue]

theorem State.popRequest_countAt (s : State) (q : Slot → Bool) (r : Port) :
    s.popRequest.countAt q r = s.countAt q r := State.countAt_congr (by cases r <;> rfl)

theorem State.popRequest_length {s : State} {m : MgmtSlot} (h : s.agentQueue.head? = some m) :
    s.popRequest.agentQueue.length + 1 = s.agentQueue.length := by
  obtain ⟨rest, hr⟩ := List.head?_eq_some_iff.mp h
  simp [State.popRequest, hr]

/-! ### The management-origin count of an answer and of the end of a fence (R60, R68) -/

theorem State.mgmtCount_respond (s : State) (m : MgmtSlot) (record : List Byte) (t : Trigger)
    (fresh : Option (List Byte)) : (s.respond m record t fresh).mgmtCount = s.mgmtCount + 1 := by
  rw [State.mgmtCount_eq, State.mgmtCount_eq, State.countSlots_respond, State.respond_agentQueue, State.respond_fence]
  simp [Slot.isMgmt, Slot.isData]
  omega

theorem State.mgmtCount_popRequest {s : State} {m : MgmtSlot} (h : s.agentQueue.head? = some m) :
    s.popRequest.mgmtCount + 1 = s.mgmtCount := by
  have hl := State.popRequest_length h
  have hc : s.popRequest.countSlots Slot.isMgmt = s.countSlots Slot.isMgmt :=
    State.countSlots_congr (s.popRequest_countAt _)
  have hf : s.popRequest.fence = s.fence := rfl
  rw [State.mgmtCount_eq, State.mgmtCount_eq, hc, hf]
  omega

theorem State.mgmtCount_endFence {s : State} {f : Fence} (h : s.fence = some f) (st : Status) (n : Nat) :
    (s.endFence f st n).mgmtCount = s.mgmtCount := by
  have hu : ({ s with fence := none } : State).mgmtCount + 1 = s.mgmtCount := by
    have hc : ({ s with fence := none } : State).countSlots Slot.isMgmt = s.countSlots Slot.isMgmt :=
      State.countSlots_congr fun r => State.countAt_congr (by cases r <;> rfl)
    rw [State.mgmtCount_eq, State.mgmtCount_eq, hc, h]
    rfl
  rw [← hu]
  exact State.mgmtCount_respond _ _ _ _ _

theorem State.mgmtCount_reportFreed (s : State) (b : Bool) : (s.reportFreed b).mgmtCount = s.mgmtCount := by
  rcases s.reportFreed_cases b with h | ⟨f, hf, -, -, h⟩ <;> rw [h]
  exact State.mgmtCount_endFence hf _ _

theorem State.mgmtCount_le_of {s t : State} (hc : t.countSlots Slot.isMgmt ≤ s.countSlots Slot.isMgmt)
    (hq : t.agentQueue.length ≤ s.agentQueue.length) (hf : t.fence = s.fence ∨ t.fence = none) :
    t.mgmtCount ≤ s.mgmtCount := by
  rw [State.mgmtCount_eq, State.mgmtCount_eq]
  rcases hf with hf | hf <;> rw [hf] <;> simp <;> omega

/-! ### The caps (R60, R64 to R66) -/

/-- A state that holds no more of anything, and whose queue limits stand unless their ports were emptied. -/
theorem State.StoreSound.of_le {s t : State} (hs : s.StoreSound)
    (hd : ∀ r, t.countAt Slot.isData r ≤ s.countAt Slot.isData r) (hm : t.mgmtCount ≤ s.mgmtCount)
    (hq : t.agentQueue.length ≤ s.agentQueue.length)
    (hl : ∀ r, (t.port r).inForce = (s.port r).inForce ∨ t.countAt Slot.isData r = 0) : t.StoreSound := by
  obtain ⟨h1, h2, h3, h4, h5, h6⟩ := hs
  have hA := hd .A
  have hB := hd .B
  rw [State.dataAt_eq] at h5 h6
  have hlimit : ∀ r, s.countAt Slot.isData r ≤ (s.port r).inForce.queueLimit →
      t.dataAt r ≤ (t.port r).inForce.queueLimit := by
    intro r hr
    rw [State.dataAt_eq]
    rcases hl r with h | h
    · rw [h]; exact (hd r).trans hr
    · omega
  have hcount : t.dataCount ≤ s.dataCount := by
    rw [State.dataCount_eq, State.dataCount_eq]
    unfold State.countSlots
    omega
  exact ⟨by omega, by omega, by omega, by omega, hlimit .A h5, hlimit .B h6⟩

theorem State.vacate_inForce (s : State) (p r : Port) : ((s.vacate p).port r).inForce = (s.port r).inForce := by
  simp [State.vacate]

theorem State.countAt_vacate_le (s : State) (p : Port) (q : Slot → Bool) (r : Port) :
    (s.vacate p).countAt q r ≤ s.countAt q r := by
  have := s.countAt_vacate p q r
  omega

theorem State.countSlots_le_of {s t : State} {q : Slot → Bool} (h : ∀ r, t.countAt q r ≤ s.countAt q r) :
    t.countSlots q ≤ s.countSlots q := Nat.add_le_add (h .A) (h .B)

theorem State.mgmtCount_vacate_le (s : State) (p : Port) : (s.vacate p).mgmtCount ≤ s.mgmtCount :=
  State.mgmtCount_le_of (State.countSlots_le_of (s.countAt_vacate_le p _)) (by simp [State.vacate])
    (.inl (by simp [State.vacate]))

theorem State.StoreSound.vacate {s : State} (hs : s.StoreSound) (p : Port) : (s.vacate p).StoreSound :=
  hs.of_le (s.countAt_vacate_le p _) (s.mgmtCount_vacate_le p) (by simp [State.vacate])
    fun r => .inl (s.vacate_inForce p r)

theorem State.SameButNormal.inForce {x y : PortState} (h : x.SameButNormal y) : y.inForce = x.inForce := by
  rw [h]

theorem State.StoreSound.reportFreed {s : State} (hs : s.StoreSound) (b : Bool) : (s.reportFreed b).StoreSound :=
  hs.of_le (fun r => (s.countAt_reportFreed b Slot.ignores_isData r).le) (s.mgmtCount_reportFreed b).le (by simp)
    fun r => .inl (SameButNormal.inForce (s.reportFreed_sameButNormal b r))

theorem State.StoreSound.portRestart {s : State} (hs : s.StoreSound) (p : Port) : (s.portRestart p).StoreSound := by
  rw [State.portRestart_eq]
  refine State.StoreSound.reportFreed (hs.of_le (fun r => ?_) (mgmtCount_le_of ?_ ?_ (.inl ?_)) ?_ fun r => ?_) _
  · rw [State.countAt_restartedAt]; split <;> omega
  · exact State.countSlots_le_of fun r => by rw [State.countAt_restartedAt]; split <;> omega
  · exact List.length_filter_le _ _
  · cases p <;> rfl
  · exact List.length_filter_le _ _
  · rw [State.restartedAt_port, State.countAt_restartedAt]
    split
    · exact .inr rfl
    · exact .inl rfl

theorem State.StoreSound.softRestart {s : State} (hs : s.StoreSound) : s.softRestart.StoreSound := by
  refine hs.of_le (fun r => ?_) (mgmtCount_le_of (State.countSlots_le_of fun r => ?_) (Nat.zero_le _) (.inr rfl))
    (Nat.zero_le _) fun r => .inr (s.countAt_softRestart _ r)
  · rw [State.countAt_softRestart]; exact Nat.zero_le _
  · rw [State.countAt_softRestart]; exact Nat.zero_le _

/-- A data-origin slot that joins a queue below its limit, where there is room. -/
theorem State.StoreSound.enqueue_data {s : State} (hs : s.StoreSound) (e : Port) (c : QueueChoice) (d : DataSlot)
    (h1 : s.dataCount + 1 ≤ Config.dataCap) (h2 : s.dataCount + s.mgmtCount + 1 ≤ Config.slotCount)
    (h3 : s.dataAt e < (s.port e).inForce.queueLimit) : (s.enqueue e c (.data d)).StoreSound := by
  obtain ⟨-, k2, k3, -, k5, k6⟩ := hs
  have hdata : (s.enqueue e c (.data d)).dataCount = s.dataCount + 1 := by
    rw [State.dataCount_eq, State.countSlots_enqueue]; rfl
  have hmgmt : (s.enqueue e c (.data d)).mgmtCount = s.mgmtCount := by
    rw [State.mgmtCount_eq, State.mgmtCount_eq, State.countSlots_enqueue]
    simp [Slot.isMgmt, Slot.isData, State.enqueue]
  have hq : (s.enqueue e c (.data d)).agentQueue = s.agentQueue := by simp [State.enqueue]
  have hat : ∀ r, s.dataAt r ≤ (s.port r).inForce.queueLimit →
      (s.enqueue e c (.data d)).dataAt r ≤ ((s.enqueue e c (.data d)).port r).inForce.queueLimit := by
    intro r hr
    have hl : ((s.enqueue e c (.data d)).port r).inForce = (s.port r).inForce := by
      cases e <;> cases r <;> cases c <;> rfl
    rw [hl, State.dataAt_eq, State.countAt_enqueue, ← State.dataAt_eq]
    split
    · rename_i h; rw [h.1]; exact h3
    · exact hr
  exact ⟨by omega, by omega, by rw [hq]; exact k3, by omega, hat .A k5, hat .B k6⟩

theorem State.Move.keeps_storeSound {s t : State} (hs : s.StoreSound) (h : s.Move t) : t.StoreSound := by
  cases h with
  | port p f hf =>
    have hc := fun q (hq : Slot.Blind q) r => State.countAt_quiet hf hq r
    refine hs.of_le (fun r => (hc _ Slot.blind_isData r).le)
      (mgmtCount_le_of (countSlots_le_of fun r => (hc _ Slot.blind_isMgmt r).le) (by simp) (.inl (by simp))) (by simp)
      fun r => .inl ?_
    rw [State.port_modPort]
    split
    · rename_i hr; rw [hr]; exact hf.inForce
    · rfl
  | count | pins | meters | session | tags => exact hs
  | lift p h x _ hh =>
    have hle : ∀ q r, (s.lifted p h x).countAt q r ≤ s.countAt q r := fun q r => by
      rw [State.countAt_lifted hh]; exact Nat.le_add_right _ _
    refine hs.of_le (hle _) (mgmtCount_le_of (countSlots_le_of (hle _)) ?_ (.inl ?_)) ?_ fun r => .inl ?_
    · simp [State.lifted]
    · simp [State.lifted]
    · simp [State.lifted]
    · rw [State.lifted, State.port_modPort, PortState.head_eq hh]
      split
      · rename_i hr; rw [hr]
      · rfl
  | store e c d ha =>
    obtain ⟨h1, h2, h3⟩ := (State.admitsData_iff s e).mp ha
    exact hs.enqueue_data e c d h2 h1 h3
  | request p f ha =>
    obtain ⟨h1, h2, h3, -⟩ := (State.admitsRequest_iff s).mp ha
    obtain ⟨k1, -, -, -, k5, k6⟩ := hs
    have hm : ({ s with agentQueue := s.agentQueue ++ [requestSlot p f] } : State).mgmtCount = s.mgmtCount + 1 := by
      have hc : ({ s with agentQueue := s.agentQueue ++ [requestSlot p f] } : State).countSlots Slot.isMgmt =
        s.countSlots Slot.isMgmt := rfl
      rw [State.mgmtCount_eq, State.mgmtCount_eq, hc, List.length_append, List.length_singleton]
      dsimp only
      omega
    refine ⟨k1, ?_, ?_, ?_, k5, k6⟩
    · rw [hm]; exact h2
    · rw [List.length_append]; exact h3
    · rw [hm]; exact h1
  | free p d hp => exact (hs.vacate p).reportFreed _
  | convert p e d n hp _ _ hq =>
    have hv := hs.vacate p
    have hd := s.countSlots_vacate p Slot.isData
    have hm := s.mgmtCount_vacate_le p
    rw [hp] at hd
    have hd' : s.dataCount = (s.vacate p).dataCount + 1 := by
      rw [State.dataCount_eq, State.dataCount_eq, hd]; rfl
    refine hv.enqueue_data e _ n ?_ ?_ (by rw [State.vacate_inForce]; exact hq)
    · rw [← hd']; exact hs.1
    · have := hs.2.2.2.1
      omega
  | release p => exact hs.vacate p
  | portRestart p q m => exact State.StoreSound.portRestart (s := s.triggered p) (hs.vacate p) q
  | softRestart p m => exact State.StoreSound.softRestart (s := s.triggered p) (hs.vacate p)
  | timeOut f n hf =>
    have hcount : ∀ {q : Slot → Bool}, Slot.Blind q → ∀ r, s.flushed.countAt q r ≤ s.countAt q r := by
      intro q hq r
      rw [State.countAt_flushed]
      exact (s.port r).countP_fenceFlush_le _ hq
    refine hs.of_le (fun r => ?_) ?_ ?_ fun r => .inl ?_
    · exact (State.countAt_endFence_ignored s.flushed f _ n Slot.ignores_isData r).le.trans
        (hcount Slot.blind_isData r)
    · rw [State.mgmtCount_endFence (show s.flushed.fence = some f from hf)]
      exact mgmtCount_le_of (countSlots_le_of (hcount Slot.blind_isMgmt)) (Nat.le_refl _) (.inl rfl)
    · rw [State.endFence_agentQueue]; exact Nat.le_refl _
    · rw [SameButNormal.inForce (State.endFence_sameButNormal s.flushed f .fenceTimeout n r)]
      obtain ⟨k, hk⟩ := s.flushed_port r
      rw [hk]; rfl
  | respond m record fresh hq =>
    refine hs.of_le (fun r => ?_) ?_ ?_ fun r => .inl ?_
    · rw [State.countAt_respond, State.popRequest_countAt]; simp [Slot.isData]
    · rw [State.mgmtCount_respond, State.mgmtCount_popRequest hq]
    · rw [State.respond_agentQueue]; have := State.popRequest_length hq; omega
    · rw [SameButNormal.inForce (State.respond_sameButNormal _ m record _ fresh r)]; cases r <;> rfl
  | respondTrigger m record t fresh hq =>
    have hq' : s.raiseMark.agentQueue.head? = some m := hq
    have hs' : s.raiseMark.StoreSound := hs
    refine hs'.of_le (fun r => ?_) ?_ ?_ fun r => .inl ?_
    · rw [State.countAt_respond, State.popRequest_countAt]; simp [Slot.isData]
    · rw [State.mgmtCount_respond, State.mgmtCount_popRequest hq']
    · rw [State.respond_agentQueue]; have := State.popRequest_length hq'; omega
    · rw [SameButNormal.inForce (State.respond_sameButNormal _ m record _ fresh r)]; cases r <;> rfl
  | hold m deadline hq hf =>
    have hl := State.popRequest_length hq
    have hm : ({ s with fence := some ⟨deadline, m⟩ } : State).popRequest.mgmtCount = s.mgmtCount := by
      rw [State.mgmtCount_eq, State.mgmtCount_eq, hf]
      have hc : ({ s with fence := some ⟨deadline, m⟩ } : State).popRequest.countSlots Slot.isMgmt =
        s.countSlots Slot.isMgmt := rfl
      have hk : ({ s with fence := some ⟨deadline, m⟩ } : State).popRequest.agentQueue = s.popRequest.agentQueue := rfl
      have ho : ({ s with fence := some ⟨deadline, m⟩ } : State).popRequest.fence = some ⟨deadline, m⟩ := rfl
      rw [hc, hk, ho]
      simp
      omega
    refine hs.of_le (fun _ => Nat.le_refl _) hm.le ?_ fun _ => .inl rfl
    have hk : ({ s with fence := some ⟨deadline, m⟩ } : State).popRequest.agentQueue = s.popRequest.agentQueue := rfl
    rw [hk]
    omega

end Sys2Proof.Machine
end

section
/-! PROOF. The invariants of the frame store, continued: what the changes leave alone, and the statements on the caps,
the places, the drivers, the fence and the restart mark (O5 to O9). -/

namespace Sys2Proof.Machine

/-! ### What a command's own change leaves alone -/

/-- Two ports that differ in counters, immediate parameters and staged values at most. -/
def PortState.SameWork (x y : PortState) : Prop :=
  y = { x with
    rx := { x.rx with counters := y.rx.counters }
    tx := { x.tx with counters := y.tx.counters }
    params := y.params
    staged := y.staged }

theorem PortState.SameWork.refl (x : PortState) : x.SameWork x := rfl

theorem State.dropSession_eq (s : State) (p : Port) (a : Byte) :
    s.dropSession p a = { s with session := (s.dropSession p a).session } := by
  unfold State.dropSession
  split <;> rfl

theorem State.changeRight_eq (s : State) (p : Port) (a : Byte) (was r : Right) :
    s.changeRight p a was r =
      { s with managers := (s.changeRight p a was r).managers, session := (s.changeRight p a was r).session } := by
  unfold State.changeRight
  dsimp only
  split
  · rw [State.dropSession_eq]; rfl
  · rfl

theorem State.Change.frame {c : Instr} {s t : State} (h : s.Change c t) :
    t.agentQueue = s.agentQueue ∧ t.fence = s.fence ∧ t.restartPending = s.restartPending ∧ t.meters = s.meters ∧
      t.clock = s.clock ∧ ∀ r, (s.port r).SameWork (t.port r) := by
  cases h with
  | taken dt p path => exact ⟨by simp, by simp, by simp, by simp, by simp, fun r => by simp [PortState.SameWork]⟩
  | swap => exact ⟨rfl, rfl, rfl, rfl, rfl, fun r => by cases r <;> rfl⟩
  | openSession dt m secs mode =>
    refine ⟨?_, ?_, ?_, ?_, ?_, fun r => ?_⟩ <;> simp [State.openSession]
    cases r <;> rfl
  | writeRule | writeProfile | zeroHits =>
    exact ⟨by simp, by simp, by simp, by simp, by simp, fun r => by simp [PortState.SameWork]⟩
  | zeroGroup dt g =>
    cases g with
    | rx p => cases p <;> exact ⟨rfl, rfl, rfl, rfl, rfl, fun r => by cases r <;> rfl⟩
    | tx p => cases p <;> exact ⟨rfl, rfl, rfl, rfl, rfl, fun r => by cases r <;> rfl⟩
    | agent => exact ⟨rfl, rfl, rfl, rfl, rfl, fun r => by cases r <;> rfl⟩
  | setPort dt p b => cases p <;> exact ⟨rfl, rfl, rfl, rfl, rfl, fun r => by cases r <;> rfl⟩
  | addManager => exact ⟨rfl, rfl, rfl, rfl, rfl, fun r => by cases r <;> rfl⟩
  | changeRight dt en p a e r =>
    rw [State.changeRight_eq]
    exact ⟨rfl, rfl, rfl, rfl, rfl, fun r => by cases r <;> rfl⟩
  | dismiss dt en p a =>
    rw [State.dropSession_eq]
    exact ⟨rfl, rfl, rfl, rfl, rfl, fun r => by cases r <;> rfl⟩

theorem PortState.SameWork.slots {x y : PortState} (h : x.SameWork y) : y.slots = x.slots := by rw [h]; rfl
theorem PortState.SameWork.urgent {x y : PortState} (h : x.SameWork y) : y.urgent = x.urgent := by rw [h]
theorem PortState.SameWork.inForce {x y : PortState} (h : x.SameWork y) : y.inForce = x.inForce := by rw [h]
theorem PortState.SameWork.position {x y : PortState} (h : x.SameWork y) (hx : x.PositionSound) : y.PositionSound := by
  rw [h]; exact hx
theorem PortState.SameWork.drivers {x y : PortState} (h : x.SameWork y) (hx : x.DriverSound) : y.DriverSound := by
  rw [h]; exact hx

theorem State.Change.countAt {c : Instr} {s t : State} (h : s.Change c t) (q : Slot → Bool) (r : Port) :
    t.countAt q r = s.countAt q r := by
  obtain ⟨-, -, -, -, -, hp⟩ := h.frame
  rw [State.countAt, (hp r).slots, State.countAt]

/-! ### The caps -/

theorem State.Change.keeps_storeSound {c : Instr} {s t : State} (hs : s.StoreSound) (h : s.Change c t) :
    t.StoreSound := by
  obtain ⟨hq, hf, -, -, -, hp⟩ := h.frame
  exact hs.of_le (fun r => (h.countAt _ r).le)
    (mgmtCount_le_of (countSlots_le_of fun r => (h.countAt _ r).le) (by rw [hq]) (.inl hf)) (by rw [hq])
    fun r => .inl (hp r).inForce

/-- Settles O5: every move and every change holds no more slots than the caps, since the two that add one to the
store are made under an admission, and a notice takes the place its slot has just left. -/
theorem stepKeepsStoreCaps : Obligations.StepKeepsStoreCaps := by
  intro s t hs h
  exact step_keeps (P := State.StoreSound) (fun s d rest hs => hs) (fun hs h => h.keeps_storeSound hs)
    (fun hs h => h.keeps_storeSound hs)
    (fun q rest => ⟨Nat.zero_le 30, Nat.zero_le 6, Nat.zero_le 4, Nat.zero_le 32, Nat.zero_le 24, Nat.zero_le 24⟩) hs h

/-! ### Both ports -/

theorem State.PositionsSound.iff (s : State) : s.PositionsSound ↔ ∀ r, (s.port r).PositionSound :=
  ⟨fun h r => by cases r; exacts [h.1, h.2], fun h => ⟨h .A, h .B⟩⟩

theorem State.DriversSound.iff (s : State) : s.DriversSound ↔ ∀ r, (s.port r).DriverSound :=
  ⟨fun h r => by cases r; exacts [h.1, h.2], fun h => ⟨h .A, h .B⟩⟩

/-! ### What a move does to one port -/

/-- The same immediate and staged parameters, and no counter that has fallen. -/
structure PortState.Grows (x y : PortState) : Prop where
  params : y.params = x.params
  staged : y.staged = x.staged
  rxCounters : ∀ i : Fin 18, x.rx.counters[i] ≤ y.rx.counters[i]
  txCounters : ∀ i : Fin 17, x.tx.counters[i] ≤ y.tx.counters[i]

theorem PortState.Grows.refl (x : PortState) : x.Grows x :=
  ⟨rfl, rfl, fun _ => BitVec.le_refl _, fun _ => BitVec.le_refl _⟩

theorem PortState.Grows.trans {x y z : PortState} (h1 : x.Grows y) (h2 : y.Grows z) : x.Grows z :=
  ⟨h2.params.trans h1.params, h2.staged.trans h1.staged, fun i => BitVec.le_trans (h1.rxCounters i) (h2.rxCounters i),
    fun i => BitVec.le_trans (h1.txCounters i) (h2.txCounters i)⟩

/-- What a move can do to a port: a quiet move, the taking up of the head, another normal queue, one more data-origin
slot in the urgent queue, the end of the frame in the position, a restart, or the flush of a fence. -/
inductive PortState.Move (x : PortState) : PortState → Prop
  | quiet {y : PortState} : x.Quiet y → x.Move y
  | lift (h : Slot) (z : PortState) : x.tx.state = .idle → x.head = some (h, z) →
    x.Move
      { z with
        tx := { z.tx with state := .defer 0 0 0, pos := some h, attempts := 0, collisions := 0, busies := 0 } }
  | normal (l : List Slot) : x.Move { x with normal := l }
  | urgent (d : DataSlot) : x.Move { x with urgent := x.urgent ++ [.data d] }
  | vacate (l : List Slot) : x.Stopped → x.Move { x with tx := x.tx.vacated, normal := l }
  | restart (i : Nat) (z : PortState) (l : List Slot) : x.Grows z → x.Move { z.restarted i with normal := l }
  | flush (c : Count) (n : Nat) (l : List Slot) :
    x.Move
      { x.fenceFlush c with
        normal := l
        tx := { (x.fenceFlush c).tx with counters := raiseAt x.tx.counters TxCounter.fenced.index n } }

theorem PortState.Move.same {x y : PortState} (h : y = x) : x.Move y := by rw [h]; exact .normal x.normal

theorem PortState.Move.ofNormal {x y : PortState} (h : x.SameButNormal y) : x.Move y := by rw [h]; exact .normal _

/-- Another normal queue changes nothing of what a move does. -/
theorem PortState.SameButNormal.vacate {x y : PortState}
    (h : { x with tx := x.tx.vacated }.SameButNormal y) (hs : x.Stopped) : x.Move y := by rw [h]; exact .vacate _ hs

theorem State.vacate_port (s : State) (p r : Port) :
    (s.vacate p).port r = if r = p then { s.port p with tx := (s.port p).tx.vacated } else s.port r :=
  s.port_modPort p r _

theorem State.vacate_then {s : State} {p r : Port} {y : PortState} (hs : (s.port p).Stopped)
    (h : ((s.vacate p).port r).SameButNormal y) : (s.port r).Move y := by
  rw [State.vacate_port] at h
  split at h
  · rename_i hr
    rw [hr]
    exact h.vacate hs
  · exact .ofNormal h

theorem State.vacate_grows (s : State) (p r : Port) : (s.port r).Grows ((s.vacate p).port r) := by
  rw [State.vacate_port]
  split
  · rename_i hr; rw [hr]; exact ⟨rfl, rfl, fun _ => BitVec.le_refl _, fun _ => BitVec.le_refl _⟩
  · exact .refl _

theorem State.raiseFlushed_grows (s : State) (p r : Port) : (s.port r).Grows ((s.raiseFlushed p).port r) := by
  rw [State.raiseFlushed, State.raiseTxBy, State.modTx, State.port_modPort]
  split
  · rename_i hr; rw [hr]; exact ⟨rfl, rfl, fun _ => BitVec.le_refl _, fun _ => le_raiseAt _ _ _ _⟩
  · exact .refl _

theorem State.triggered_port (s : State) (p r : Port) : (s.triggered p).port r = (s.vacate p).port r := by
  cases r <;> rfl

theorem State.triggered_grows (s : State) (p r : Port) : (s.port r).Grows ((s.triggered p).port r) := by
  rw [State.triggered_port]; exact s.vacate_grows p r

theorem State.Move.port_move {s t : State} (h : s.Move t) (r : Port) : (s.port r).Move (t.port r) := by
  cases h with
  | port p f hf =>
    rw [State.port_modPort]
    split
    · rename_i hr; rw [hr]; exact .quiet hf
    · exact .same rfl
  | count | pins | meters | session | tags | request | hold => exact .same (by cases r <;> rfl)
  | lift p h x hidle hh =>
    rw [State.lifted, State.port_modPort]
    split
    · rename_i hr; rw [hr]; exact .lift h x hidle hh
    · exact .same rfl
  | store e c d =>
    cases c with
    | normal => exact .ofNormal (s.enqueue_normal_port e _ r)
    | urgent =>
      rw [State.enqueue, State.port_modPort]
      split
      · rename_i hr; rw [hr]; exact .urgent d
      · exact .same rfl
  | free p d _ hstop => exact State.vacate_then hstop (State.reportFreed_sameButNormal _ _ r)
  | convert p e d n _ hstop => exact State.vacate_then hstop (State.enqueue_normal_port _ _ _ r)
  | release p _ hstop => exact State.vacate_then hstop rfl
  | portRestart p q m _ _ hstop =>
    have hn : (((s.triggered p).restartedAt q).port r).SameButNormal (((s.triggered p).portRestart q).port r) :=
      State.reportFreed_sameButNormal _ _ r
    rw [State.restartedAt_port] at hn
    split at hn
    · rename_i hr
      rw [hn, hr]
      exact .restart _ _ _ ((s.triggered_grows p q).trans (State.raiseFlushed_grows _ q q))
    · rw [State.triggered_port] at hn
      exact State.vacate_then hstop hn
  | softRestart p m =>
    rw [State.softRestart_port, State.raiseAgent_port]
    exact .restart _ _ [] ((s.triggered_grows p r).trans
      ((State.raiseFlushed_grows _ .A r).trans (State.raiseFlushed_grows _ .B r)))
  | timeOut f n =>
    obtain ⟨k, hk⟩ := s.flushed_port r
    have hn := s.flushed.endFence_sameButNormal f .fenceTimeout n r
    rw [hk] at hn
    rw [hn]
    exact .flush _ _ _
  | respond m record fresh =>
    have hn := State.respond_sameButNormal s.popRequest m record .none fresh r
    exact .ofNormal (by cases r <;> exact hn)
  | respondTrigger m record t fresh =>
    have hn := State.respond_sameButNormal s.raiseMark.popRequest m record t fresh r
    exact .ofNormal (by cases r <;> exact hn)

end Sys2Proof.Machine
end

section
namespace Sys2Proof.Machine

/-! ### Positions (R112) -/

theorem PortState.Quiet.positionSound {x y : PortState} (h : x.Quiet y) (hx : x.PositionSound) : y.PositionSound := by
  obtain ⟨g, -, hp⟩ := h.pos
  refine ⟨?_, fun hsel => hx.2 (h.select hsel)⟩
  rw [h.idle, hx.1, hp, Option.map_eq_none_iff]

theorem PortState.Move.keeps_position {x y : PortState} (hx : x.PositionSound) (h : x.Move y) : y.PositionSound := by
  cases h with
  | quiet h => exact h.positionSound hx
  | lift h z => exact ⟨by simp, by simp⟩
  | normal | urgent => exact hx
  | vacate => exact ⟨⟨fun _ => rfl, fun _ => rfl⟩, TxState.noConfusion⟩
  | restart => exact ⟨⟨fun _ => rfl, fun _ => rfl⟩, TxState.noConfusion⟩
  | flush => exact ⟨by simpa [PortState.fenceFlush] using hx.1, hx.2⟩

theorem State.Move.keeps_positions {s t : State} (hs : s.PositionsSound) (h : s.Move t) : t.PositionsSound :=
  (State.PositionsSound.iff t).mpr fun r => (h.port_move r).keeps_position ((State.PositionsSound.iff s).mp hs r)

theorem State.Change.keeps_positions {c : Instr} {s t : State} (hs : s.PositionsSound) (h : s.Change c t) :
    t.PositionsSound :=
  (State.PositionsSound.iff t).mpr fun r => (h.frame.2.2.2.2.2 r).position ((State.PositionsSound.iff s).mp hs r)

/-! ### Kinds (R59, R61, R62) -/

/-- R59, R61: no request in a queue or position, as counts see it; urgent queues hold data-origin slots alone. -/
theorem State.KindsSound.iff (s : State) : s.KindsSound ↔
    (∀ r, ∀ y ∈ (s.port r).urgent, y.isData = true) ∧ (∀ r, s.countAt Slot.isRequest r = 0) ∧
      (∀ m ∈ s.agentQueue, m.kind = .request) ∧ ∀ f ∈ s.fence, f.holder.kind = .request := by
  have hcount : ∀ r, s.countAt Slot.isRequest r = 0 ↔ ∀ y ∈ (s.port r).slots, y.isRequest = false := fun r => by
    simp [State.countAt, List.countP_eq_zero]
  simp only [hcount, State.KindsSound, PortState.KindsSound, Option.mem_toList]
  constructor
  · rintro ⟨⟨a1, a2⟩, ⟨b1, b2⟩, h3, h4⟩
    exact ⟨fun r => by cases r; exacts [a1, b1], fun r => by cases r; exacts [a2, b2], h3, h4⟩
  · rintro ⟨h1, h2, h3, h4⟩
    exact ⟨⟨h1 .A, h2 .A⟩, ⟨h1 .B, h2 .B⟩, h3, h4⟩

/-- The urgent queue holds data-origin slots alone. -/
def PortState.UrgentSound (x : PortState) : Prop := ∀ y ∈ x.urgent, y.isData = true

theorem PortState.Move.keeps_urgent {x y : PortState} (hx : x.UrgentSound) (h : x.Move y) : y.UrgentSound := by
  cases h with
  | quiet h => rw [PortState.UrgentSound, h.urgent]; exact hx
  | lift h z _ hh =>
    intro y hy
    have hu : y ∈ x.urgent := by
      unfold PortState.head at hh
      split at hh
      · rename_i hcons
        cases hh
        rw [hcons]
        exact List.mem_cons_of_mem _ hy
      · cases hh; exact hy
      · cases hh
    exact hx y hu
  | urgent d =>
    intro y hy
    rcases List.mem_append.mp hy with hy | hy
    · exact hx y hy
    · rw [List.mem_singleton.mp hy]; rfl
  | normal | vacate => exact hx
  | restart => exact fun y hy => by cases hy
  | flush => exact fun y hy => hx y (List.mem_filter.mp hy).1

/-- A kind of slot that is blind to labels and of which no data-origin slot and no response is one never joins a place. -/
theorem State.Move.countAt_le {s t : State} (h : s.Move t) {q : Slot → Bool} (hb : Slot.Blind q)
    (hi : ∀ m : MgmtSlot, m.kind = .response → q (.mgmt m) = false) (hd : ∀ d, q (.data d) = false) (r : Port) :
    t.countAt q r ≤ s.countAt q r := by
  have hi' : Slot.Ignores q := fun m hm _ => hi m hm
  cases h with
  | port p f hf => exact (State.countAt_quiet hf hb r).le
  | count | pins | meters | session | tags | request | hold => exact (State.countAt_congr (by cases r <;> rfl)).le
  | lift p h x _ hh => rw [State.countAt_lifted hh]; exact Nat.le_add_right _ _
  | store e c d => rw [State.countAt_enqueue, hd]; simp
  | free p d => rw [State.countAt_reportFreed _ _ hi']; exact s.countAt_vacate_le p q r
  | convert p e d n => rw [State.countAt_enqueue, hd]; simpa using s.countAt_vacate_le p q r
  | release p => exact s.countAt_vacate_le p q r
  | portRestart p k m =>
    rw [State.countAt_portRestart _ _ hi']
    split
    · exact Nat.zero_le _
    · exact (State.countAt_congr (by cases r <;> rfl)).le.trans (s.countAt_vacate_le p q r)
  | softRestart p m => rw [State.countAt_softRestart]; exact Nat.zero_le _
  | timeOut f n =>
    rw [State.countAt_endFence_ignored _ _ _ _ hi', State.countAt_flushed]
    exact (s.port r).countP_fenceFlush_le _ hb
  | respond m record fresh => rw [State.countAt_respond, hi _ rfl, State.popRequest_countAt]; simp
  | respondTrigger m record t fresh =>
    rw [State.countAt_respond, hi _ rfl, State.popRequest_countAt]
    simpa using (State.countAt_congr (s := s) (t := s.raiseMark) (q := q) (by cases r <;> rfl)).le

/-- R62: the agent queue takes requests of stations, and loses them from its head or to a restart. -/
theorem State.Move.agentQueue_mem {s t : State} (h : s.Move t) {m : MgmtSlot} (hm : m ∈ t.agentQueue) :
    m ∈ s.agentQueue ∨ ∃ p f, m = requestSlot p f ∧ f.src ≠ 255 := by
  cases h with
  | request p f _ hsrc =>
    rcases List.mem_append.mp hm with hm | hm
    · exact .inl hm
    · exact .inr ⟨p, f, List.mem_singleton.mp hm, hsrc⟩
  | portRestart p q k => 
    rw [State.portRestart_eq, State.reportFreed_agentQueue] at hm
    have := (List.mem_filter.mp hm).1
    cases p <;> exact .inl this
  | softRestart p k => cases hm
  | respond k record fresh => rw [State.respond_agentQueue] at hm; exact .inl (List.mem_of_mem_tail hm)
  | respondTrigger k record t fresh => rw [State.respond_agentQueue] at hm; exact .inl (List.mem_of_mem_tail hm)
  | hold => exact .inl (List.mem_of_mem_tail hm)
  | timeOut f n => rw [State.endFence_agentQueue] at hm; exact .inl hm
  | _ => left; simpa [State.lifted, State.enqueue, State.vacate] using hm

/-- R51: a fence that stands after a move stood before it, or has just taken its request from the agent queue. -/
theorem State.Move.fence_of {s t : State} (h : s.Move t) {f : Fence} (hf : t.fence = some f) :
    s.fence = some f ∨ f.holder ∈ s.agentQueue := by
  have reported : ∀ {u : State} {b : Bool}, (u.reportFreed b).fence = some f → u.fence = some f := by
    intro u b hu
    rcases u.reportFreed_cases b with h | ⟨f', -, -, -, h⟩ <;> rw [h] at hu
    · exact hu
    · simp at hu
  cases h with
  | hold m deadline hq =>
    cases hf
    exact .inr (List.mem_of_mem_head? hq)
  | free p d => exact .inl (by simpa [State.vacate] using reported hf)
  | portRestart p q k =>
    have := reported hf
    cases p <;> cases q <;> exact .inl this
  | softRestart p k => cases hf
  | timeOut f' n => simp at hf
  | respond k record fresh => rw [State.respond_fence] at hf; exact .inl hf
  | respondTrigger k record t fresh => rw [State.respond_fence] at hf; exact .inl hf
  | _ => left; simpa [State.lifted, State.enqueue, State.vacate] using hf

theorem State.Move.keeps_kinds {s t : State} (hs : s.KindsSound) (h : s.Move t) : t.KindsSound := by
  obtain ⟨hu, hr, hq, hf⟩ := (State.KindsSound.iff s).mp hs
  refine (State.KindsSound.iff t).mpr ⟨fun r => (h.port_move r).keeps_urgent (hu r), fun r => ?_, fun m hm => ?_, fun f hf' => ?_⟩
  · have := h.countAt_le Slot.blind_isRequest (fun m hm => by simp [Slot.isRequest, hm]) (fun _ => rfl) r
    rw [hr r] at this
    omega
  · rcases h.agentQueue_mem hm with hm | ⟨p, f, rfl, -⟩
    · exact hq m hm
    · rfl
  · rcases h.fence_of hf' with hf' | hm
    · exact hf f hf'
    · exact hq _ hm

theorem State.Change.keeps_kinds {c : Instr} {s t : State} (hs : s.KindsSound) (h : s.Change c t) :
    t.KindsSound := by
  obtain ⟨hq, hf, -, -, -, hp⟩ := h.frame
  rw [State.KindsSound.iff] at hs ⊢
  obtain ⟨h1, h2, h3, h4⟩ := hs
  exact ⟨fun r => by rw [(hp r).urgent]; exact h1 r, fun r => by rw [h.countAt]; exact h2 r, by rw [hq]; exact h3,
    by rw [hf]; exact h4⟩

theorem State.powerOn_positions (q : Pins) (rest : List Instr) :
    ({ State.powerOn q with pending := rest } : State).PositionsSound := by
  refine (State.PositionsSound.iff _).mpr fun r => ?_
  cases r <;> exact ⟨⟨fun _ => rfl, fun _ => rfl⟩, TxState.noConfusion⟩

/-- Settles O6: no move puts a request into a queue or a management-origin slot into an urgent queue, and each leaves a
path IDLE exactly when it leaves its position empty. -/
theorem stepKeepsPlaces : Obligations.StepKeepsPlaces := by
  intro s t hs h
  refine step_keeps (P := fun s => s.KindsSound ∧ s.PositionsSound) (fun s d rest hs => hs) ?move ?change ?reset hs h
  case move =>
    rintro s t ⟨hk, hp⟩ h
    exact ⟨h.keeps_kinds hk, h.keeps_positions hp⟩
  case change =>
    rintro c s t ⟨hk, hp⟩ h
    exact ⟨h.keeps_kinds hk, h.keeps_positions hp⟩
  case reset =>
    refine fun q rest => ⟨(State.KindsSound.iff _).mpr ⟨fun r y hy => ?_, fun r => ?_, by simp [State.powerOn],
      by simp [State.powerOn]⟩, State.powerOn_positions q rest⟩
    · cases r <;> cases hy
    · cases r <;> rfl

/-! ### Drivers (R86, R109) -/

theorem PortState.Move.keeps_drivers {x y : PortState} (hx : x.DriverSound) (h : x.Move y) : y.DriverSound := by
  cases h with
  | quiet h => exact h.drivers hx
  | lift h z hidle hh =>
    rw [PortState.head_eq hh]
    refine ⟨fun hsend => by simp [TxState.isSending] at hsend, fun hk => .inr ?_⟩
    simpa [hidle, TxState.isSending] using hx.2 hk
  | normal | urgent | flush => exact hx
  | vacate l hstop =>
    exact ⟨fun hs => by simp [TxPath.vacated, TxState.isSending] at hs,
      fun hk => .inr ((hx.2 hk).resolve_left fun hs => hk (hstop hs))⟩
  | restart => exact ⟨fun _ => rfl, fun h => absurd rfl h⟩

theorem State.Move.keeps_drivers {s t : State} (hs : s.DriversSound) (h : s.Move t) : t.DriversSound :=
  (State.DriversSound.iff t).mpr fun r => (h.port_move r).keeps_drivers ((State.DriversSound.iff s).mp hs r)

theorem State.Change.keeps_drivers {c : Instr} {s t : State} (hs : s.DriversSound) (h : s.Change c t) :
    t.DriversSound :=
  (State.DriversSound.iff t).mpr fun r => (h.frame.2.2.2.2.2 r).drivers ((State.DriversSound.iff s).mp hs r)

theorem State.powerOn_drivers (q : Pins) (rest : List Instr) :
    ({ State.powerOn q with pending := rest } : State).DriversSound := by
  refine (State.DriversSound.iff _).mpr fun r => ?_
  cases r <;> exact ⟨fun _ => rfl, fun h => absurd rfl h⟩

/-- Settles O7: a send begins only with the receive path in IDLE, a reply is decided only at a path that does not send,
and a collision is marked only while one of them drives and is done with where it stops. -/
theorem stepKeepsOneDriver : Obligations.StepKeepsOneDriver := by
  intro s t hs h
  have sound : t.DriversSound := step_keeps (fun s d rest hs => hs) (fun hs h => h.keeps_drivers hs)
    (fun hs h => h.keeps_drivers hs) State.powerOn_drivers hs h
  refine ⟨sound, fun p ⟨hsend, hreply⟩ => ?_⟩
  rw [((State.DriversSound.iff t).mp sound p).1 hsend] at hreply
  simp [RxState.isReplying] at hreply

/-! ### The old set of a pending fence (R51 to R53, R73) -/

/-- R73: a fence that still stands after a freeing was reported has not heard of its last old slot. -/
theorem State.reportFreed_stands {s : State} {b : Bool} (h : (s.reportFreed b).fence.isSome = true) :
    s.reportFreed b = s ∧ (b = true → s.oldCount ≠ 0) := by
  unfold State.reportFreed at h ⊢
  split
  · rename_i hf
    simp [hf] at h
  · rename_i f hf
    rw [hf] at h
    dsimp only at h
    split at h
    · simp at h
    · rename_i hn
      refine ⟨if_neg hn, fun hb ho => hn ⟨hb, ho⟩⟩

theorem State.oldCount_vacate {s : State} {p : Port} {x : Slot} (hp : (s.port p).tx.pos = some x) :
    s.oldCount = (s.vacate p).oldCount + if x.isOld s.commitCount = true then 1 else 0 := by
  have h := s.countSlots_vacate p (Slot.isOld s.commitCount)
  have hc : (s.vacate p).commitCount = s.commitCount := by simp [State.vacate]
  rw [State.oldCount_eq, State.oldCount_eq, hc, h, hp]
  simp [List.countP_cons]

theorem State.oldCount_congr {s t : State} (hc : t.commitCount = s.commitCount)
    (h : t.countSlots (Slot.isOld s.commitCount) = s.countSlots (Slot.isOld s.commitCount)) :
    t.oldCount = s.oldCount := by rw [State.oldCount_eq, State.oldCount_eq, hc, h]

theorem any_of_countP_pos {α : Type} {q : α → Bool} {l : List α} (h : 0 < l.countP q) : l.any q = true := by
  obtain ⟨a, ha, hq⟩ := List.countP_pos_iff.mp h
  exact List.any_eq_true.mpr ⟨a, ha, hq⟩

theorem State.Move.keeps_fenceSound {s t : State} (hp : ∀ r, (s.port r).PositionSound) (hs : s.FenceSound)
    (h : s.Move t) : t.FenceSound := by
  intro hft
  have same : ∀ {u : State}, u.fence = s.fence → u.commitCount = s.commitCount →
      u.countSlots (Slot.isOld s.commitCount) = s.countSlots (Slot.isOld s.commitCount) → u.fence.isSome = true →
      0 < u.oldCount := by
    intro u hf hc hn hu
    rw [State.oldCount_congr hc hn]
    exact hs (hf ▸ hu)
  cases h with
  | port p f hf =>
    refine same (by simp) (by simp) (State.countSlots_congr fun r => ?_) hft
    exact State.countAt_quiet hf (Slot.blind_isOld _) r
  | count | pins | meters | session | tags | request => exact hs hft
  | lift p h x hidle hh =>
    have hnone : (s.port p).tx.pos = none := (hp p).1.mp hidle
    have hc := State.countSlots_lifted hh (Slot.isOld s.commitCount)
    rw [hnone] at hc
    exact same (by simp [State.lifted]) (by simp [State.lifted]) (by simpa using hc.symm) hft
  | store e c d _ he =>
    refine same (by simp [State.enqueue]) (by simp [State.enqueue]) ?_ hft
    rw [State.countSlots_enqueue]
    simp [Slot.isOld, he]
  | free p d hpos =>
    obtain ⟨heq, hlast⟩ := State.reportFreed_stands hft
    rw [heq] at hft ⊢
    have hc := State.oldCount_vacate hpos
    by_cases hold : d.epoch = s.commitCount
    · have : 0 < s.oldCount := hs (by simpa [State.vacate] using hft)
      simp [Slot.isOld, hold] at hc
      omega
    · have := hlast (by simpa using hold)
      omega
  | convert p e d n hpos _ he =>
    refine same (by simp [State.enqueue, State.vacate]) (by simp [State.enqueue, State.vacate]) ?_ hft
    have hc := s.countSlots_vacate p (Slot.isOld s.commitCount)
    rw [State.countSlots_enqueue, hc, hpos]
    simp [Slot.isOld, he, List.countP_cons]
  | release p hx =>
    refine same (by simp [State.vacate]) (by simp [State.vacate]) ?_ hft
    have hc := s.countSlots_vacate p (Slot.isOld s.commitCount)
    rw [hc]
    cases hpos : (s.port p).tx.pos with
    | none => rfl
    | some x =>
      cases x with
      | data d => simp [hpos, Slot.isData] at hx
      | mgmt m => rfl
  | portRestart p q m hpos =>
    rw [State.portRestart_eq] at hft ⊢
    generalize hu : s.triggered p = u at hft ⊢
    have hold : u.oldCount = s.oldCount := by
      have hc := State.oldCount_vacate hpos
      have hv : u.oldCount = (s.vacate p).oldCount := by rw [← hu]; rfl
      rw [hv, hc]
      simp [Slot.isOld]
    obtain ⟨heq, hlast⟩ := State.reportFreed_stands hft
    rw [heq] at hft ⊢
    have hfu : (u.restartedAt q).fence = u.fence := by cases q <;> rfl
    have hfs : u.fence = s.fence := by rw [← hu]; simp [State.triggered, State.vacate]
    have hpos0 : 0 < u.oldCount := hold ▸ hs (by rw [← hfs, ← hfu]; exact hft)
    by_cases hany : (u.port q).slots.any (Slot.isOld u.commitCount) = true
    · have := hlast hany
      omega
    · have hnone : u.countAt (Slot.isOld u.commitCount) q = 0 := by
        by_contra hne
        exact hany (any_of_countP_pos (Nat.pos_of_ne_zero hne))
      have hcc : (u.restartedAt q).commitCount = u.commitCount := by cases q <;> rfl
      rw [State.oldCount_congr hcc (State.countSlots_congr fun r => ?_)]
      · exact hpos0
      · rw [State.countAt_restartedAt]
        split
        · rename_i hr; rw [hr, hnone]
        · rfl
  | softRestart p m => cases hft
  | timeOut f n => simp at hft
  | respond m record fresh hq =>
    refine same (by simp [State.popRequest]) (by simp [State.popRequest]) ?_ hft
    rw [State.countSlots_respond]
    rfl
  | respondTrigger m record t fresh hq =>
    refine same (by simp [State.popRequest, State.raiseMark]) (by simp [State.popRequest, State.raiseMark]) ?_ hft
    rw [State.countSlots_respond]
    rfl
  | hold m deadline _ _ ho => exact Nat.pos_of_ne_zero ho

theorem State.Change.keeps_fenceSound {c : Instr} {s t : State} (hs : s.FenceSound) (h : s.Change c t) :
    t.FenceSound := by
  intro hft
  obtain ⟨-, hf, -⟩ := h.frame
  have hn := State.countSlots_congr fun r => h.countAt (Slot.isOld s.commitCount) r
  have hcc : t.commitCount = s.commitCount := by
    cases h with
    | swap dt hnone => rw [hf, hnone] at hft; cases hft
    | zeroGroup dt g => cases g <;> simp [State.zeroGroup]
    | changeRight => rw [State.changeRight_eq]
    | dismiss => rw [State.dropSession_eq]
    | addManager => rfl
    | _ => simp [State.openSession]
  rw [State.oldCount_congr hcc hn]
  exact hs (hf ▸ hft)

/-- Settles O8: the freeing of the last old slot ends the fence in the same move, no other move takes an old slot away,
and a fence is pending only once a commit has left old slots. -/
theorem stepKeepsFenceNonEmpty : Obligations.StepKeepsFenceNonEmpty := by
  intro s t hs h
  refine (step_keeps (P := fun s => s.PositionsSound ∧ s.FenceSound) (fun s d rest hs => hs) ?move ?change
    (fun q rest => ⟨State.powerOn_positions q rest, fun h => by cases h⟩) hs h).2
  case move =>
    rintro s t ⟨hp, hf⟩ h
    exact ⟨h.keeps_positions hp, h.keeps_fenceSound ((State.PositionsSound.iff s).mp hp) hf⟩
  case change =>
    rintro c s t ⟨hp, hf⟩ h
    exact ⟨h.keeps_positions hp, h.keeps_fenceSound hf⟩

/-! ### The restart-pending mark (R144 to R147) -/

theorem State.Move.keeps_mark {s t : State} (hp : ∀ r, (s.port r).PositionSound) (hs : s.MarkSound)
    (hb : s.MarkBounded) (h : s.Move t) : t.MarkSound ∧ t.MarkBounded := by
  have hs' : s.restartPending = s.countSlots Slot.hasTrigger := hs
  have same : ∀ {u : State}, u.restartPending = s.restartPending → u.agentQueue.length ≤ s.agentQueue.length →
      u.countSlots Slot.hasTrigger = s.countSlots Slot.hasTrigger → u.MarkSound ∧ u.MarkBounded := by
    intro u hr hq hn
    have hb' : s.restartPending + s.agentQueue.length ≤ Config.agentQueueCap := hb
    refine ⟨?_, ?_⟩
    · rw [State.MarkSound, State.triggerCount_eq, hn, hr, hs']
    · rw [State.MarkBounded, hr]; omega
  have vacated := fun p => s.countSlots_vacate p Slot.hasTrigger
  cases h with
  | port p f hf =>
    exact same (by simp) (by simp) (State.countSlots_congr fun r => State.countAt_quiet hf Slot.blind_hasTrigger r)
  | count | pins | meters | session | tags => exact ⟨hs, hb⟩
  | request p f ha =>
    obtain ⟨-, -, hlen, hzero⟩ := (State.admitsRequest_iff s).mp ha
    refine ⟨hs, ?_⟩
    rw [State.MarkBounded, List.length_append]
    simp [hzero, Config.agentQueueCap]
    omega
  | lift p h x hidle hh =>
    have hc := State.countSlots_lifted hh Slot.hasTrigger
    rw [(hp p).1.mp hidle] at hc
    exact same (by simp [State.lifted]) (by simp [State.lifted]) (by simpa using hc.symm)
  | store e c d =>
    refine same (by simp [State.enqueue]) (by simp [State.enqueue]) ?_
    rw [State.countSlots_enqueue]; rfl
  | free p d hpos =>
    refine same (by simp [State.vacate]) (by simp [State.vacate]) ?_
    rw [State.countSlots_congr (State.countAt_reportFreed _ _ Slot.ignores_hasTrigger), vacated p, hpos]; rfl
  | convert p e d n hpos =>
    refine same (by simp [State.vacate, State.enqueue]) (by simp [State.vacate, State.enqueue]) ?_
    rw [State.countSlots_enqueue, vacated p, hpos]; rfl
  | release p hx =>
    refine same (by simp [State.vacate]) (by simp [State.vacate]) ?_
    rw [vacated p]
    cases hpos : (s.port p).tx.pos with
    | none => rfl
    | some x =>
      have := (hx x hpos).2
      simp [this]
  | portRestart p q m hpos ht =>
    generalize hu : s.triggered p = u
    have hcount : s.countSlots Slot.hasTrigger = u.countSlots Slot.hasTrigger + 1 := by
      have hv : u.countSlots Slot.hasTrigger = (s.vacate p).countSlots Slot.hasTrigger := by rw [← hu]; rfl
      rw [vacated p, hv, hpos]
      simp [Slot.hasTrigger, ht]
    have hpend : u.restartPending = s.restartPending - 1 := by rw [← hu]; rfl
    have hqueue : u.agentQueue = s.agentQueue := by rw [← hu]; simp [State.triggered, State.vacate]
    have hAB : u.countSlots Slot.hasTrigger = u.countAt Slot.hasTrigger q + u.countAt Slot.hasTrigger q.other := by
      unfold State.countSlots
      cases q <;> simp [Port.other]
      exact Nat.add_comm _ _
    have hleft : (u.portRestart q).countSlots Slot.hasTrigger = u.countAt Slot.hasTrigger q.other := by
      unfold State.countSlots
      rw [State.countAt_portRestart _ _ Slot.ignores_hasTrigger, State.countAt_portRestart _ _ Slot.ignores_hasTrigger]
      cases q <;> simp [Port.other]
    have hmark : (u.portRestart q).restartPending = u.restartPending - u.countAt Slot.hasTrigger q := by
      rw [State.portRestart_eq, State.reportFreed_restartPending]; rfl
    have hlen : (u.portRestart q).agentQueue.length ≤ u.agentQueue.length := by
      rw [State.portRestart_eq, State.reportFreed_agentQueue]; exact List.length_filter_le _ _
    have hb' : s.restartPending + s.agentQueue.length ≤ Config.agentQueueCap := hb
    refine ⟨?_, ?_⟩
    · rw [State.MarkSound, State.triggerCount_eq, hleft, hmark]; omega
    · rw [State.MarkBounded, hmark]; rw [hqueue] at hlen; omega
  | softRestart p m => exact ⟨rfl, Nat.zero_le _⟩
  | timeOut f n =>
    refine same (by simp; rfl) (by simp; rfl) (State.countSlots_congr fun r => ?_)
    rw [State.countAt_endFence_ignored _ _ _ _ Slot.ignores_hasTrigger, State.countAt_flushed]
    exact (s.port r).countP_fenceFlush_eq _ Slot.blind_hasTrigger fun y hy => by
      cases y with
      | data d => cases hy
      | mgmt m => rfl
  | respond m record fresh hq =>
    have hl := State.popRequest_length hq
    refine same (by simp [State.popRequest]) (by rw [State.respond_agentQueue]; omega) ?_
    rw [State.countSlots_respond]
    rfl
  | respondTrigger m record t fresh hq ht =>
    have hl : s.raiseMark.popRequest.agentQueue.length + 1 = s.agentQueue.length :=
      State.popRequest_length (s := s.raiseMark) hq
    have hb' : s.restartPending + s.agentQueue.length ≤ Config.agentQueueCap := hb
    have hmark : s.raiseMark.popRequest.restartPending = s.restartPending + 1 := rfl
    have hn : s.raiseMark.popRequest.countSlots Slot.hasTrigger = s.countSlots Slot.hasTrigger := rfl
    refine ⟨?_, ?_⟩
    · rw [State.MarkSound, State.triggerCount_eq, State.countSlots_respond, State.respond_restartPending, hmark, hn, hs']
      simp [Slot.hasTrigger, State.response, ht]
    · rw [State.MarkBounded, State.respond_restartPending, State.respond_agentQueue, hmark]; omega
  | hold m deadline hq =>
    have hl := State.popRequest_length hq
    refine same rfl ?_ rfl
    have : ({ s with fence := some ⟨deadline, m⟩ } : State).popRequest.agentQueue = s.popRequest.agentQueue := rfl
    rw [this]; omega

theorem State.Change.keeps_mark {c : Instr} {s t : State} (hs : s.MarkSound) (hb : s.MarkBounded)
    (h : s.Change c t) : t.MarkSound ∧ t.MarkBounded := by
  obtain ⟨hq, -, hr, -⟩ := h.frame
  refine ⟨?_, ?_⟩
  · rw [State.MarkSound, State.triggerCount_eq, State.countSlots_congr fun r => h.countAt _ r, hr]; exact hs
  · rw [State.MarkBounded, hq, hr]; exact hb

/-- Settles O9: a slot with a trigger joins a queue only as its mark rises, and leaves the store only by its own outcome
or a restart's flush, which lower the mark by as much; requests are admitted only while the mark is 0. -/
theorem stepKeepsRestartMark : Obligations.StepKeepsRestartMark := by
  intro s t hs h
  refine (step_keeps (P := fun s => s.PositionsSound ∧ s.MarkSound ∧ s.MarkBounded) (fun s d rest hs => hs) ?move
    ?change (fun q rest => ⟨State.powerOn_positions q rest, rfl, Nat.zero_le _⟩) hs h).2
  case move =>
    rintro s t ⟨hp, hm, hb⟩ h
    exact ⟨h.keeps_positions hp, h.keeps_mark ((State.PositionsSound.iff s).mp hp) hm hb⟩
  case change =>
    rintro c s t ⟨hp, hm, hb⟩ h
    exact ⟨h.keeps_positions hp, h.keeps_mark hm hb⟩

end Sys2Proof.Machine
end

section
/-! PROOF. The manager table and the session owner, and the ranges of meters and parameters, at every step (O10, O11). -/

namespace Sys2Proof.Machine

/-! ### What no move touches -/

/-- The clock, the designation, the banks and the commit count are no move's. -/
theorem State.Move.frame {s t : State} (h : s.Move t) :
    t.clock = s.clock ∧ t.active = s.active ∧ t.bankX = s.bankX ∧ t.bankY = s.bankY ∧
      t.commitCount = s.commitCount := by
  cases h with
  | count | pins | meters | session | tags | request | hold => exact ⟨rfl, rfl, rfl, rfl, rfl⟩
  | portRestart p q k =>
    rw [State.portRestart_eq]
    simp [State.restartedAt, State.raiseFlushed, State.raiseTxBy, State.triggered, State.vacate]
  | softRestart p k => simp [State.softRestart, State.raiseFlushed, State.raiseTxBy, State.triggered, State.vacate]
  | timeOut f n => simp; exact ⟨rfl, rfl, rfl, rfl, rfl⟩
  | respond | respondTrigger => simp; exact ⟨rfl, rfl, rfl, rfl, rfl⟩
  | _ => simp [State.lifted, State.enqueue, State.vacate]

/-- The stations of the manager table with their rights. -/
def stations (ms : List Manager) : List (Port × Byte × Right) := ms.map fun e => (e.port, e.addr, e.right)

theorem stations_map {g : Manager → Manager}
    (h : ∀ e, (g e).port = e.port ∧ (g e).addr = e.addr ∧ (g e).right = e.right) (ms : List Manager) :
    stations (ms.map g) = stations ms := by
  rw [stations, List.map_map]
  exact List.map_congr_left fun e _ => by
    obtain ⟨hp, ha, hr⟩ := h e
    simp only [Function.comp_apply, hp, ha, hr]

theorem stations_managersAnswered (ms : List Manager) (m : MgmtSlot) (tag : Byte) (record : List Byte) :
    stations (managersAnswered ms m tag record) = stations ms :=
  stations_map (fun e => by split <;> exact ⟨rfl, rfl, rfl⟩) ms

theorem stations_recordTag (s : State) (m : MgmtSlot) (fresh : Option (List Byte)) :
    stations (s.recordTag m fresh).managers = stations s.managers := by
  unfold State.recordTag
  split
  · rfl
  · exact stations_map (fun e => by split <;> exact ⟨rfl, rfl, rfl⟩) s.managers

theorem stations_respond (s : State) (m : MgmtSlot) (record : List Byte) (t : Trigger) (fresh : Option (List Byte)) :
    stations (s.respond m record t fresh).managers = stations s.managers := by
  rw [State.respond, stations_recordTag, State.enqueue, State.modPort_managers]

theorem stations_endFence (s : State) (f : Fence) (st : Status) (n : Nat) :
    stations (s.endFence f st n).managers = stations s.managers := by
  rw [State.endFence_eq]; exact stations_managersAnswered ..

theorem stations_reportFreed (s : State) (b : Bool) : stations (s.reportFreed b).managers = stations s.managers := by
  rcases s.reportFreed_cases b with h | ⟨f, -, -, -, h⟩
  · rw [h]
  · rw [h, stations_endFence]

theorem stations_clearPending (p : Port → Bool) (ms : List Manager) : stations (clearPending p ms) = stations ms :=
  stations_map (fun e => by split <;> exact ⟨rfl, rfl, rfl⟩) ms

theorem State.Move.stations {s t : State} (h : s.Move t) :
    Machine.stations t.managers = Machine.stations s.managers := by
  cases h with
  | tags g hg => exact stations_map hg _
  | portRestart p q k =>
    rw [State.portRestart_eq, stations_reportFreed]
    simp [State.restartedAt, stations_clearPending, State.triggered, State.vacate]
  | softRestart p k => simp [State.softRestart, stations_clearPending, State.triggered, State.vacate]
  | timeOut f n => rw [stations_endFence]; rfl
  | free p d => rw [stations_reportFreed]; cases p <;> rfl
  | respond | respondTrigger => rw [stations_respond]; rfl
  | count | pins | meters | session | request | hold => rfl
  | _ => simp [State.lifted, State.enqueue, State.vacate]

/-- A session that stands after a move stood before it, but for its deadline (R43). -/
theorem State.Move.session_of {s t : State} (h : s.Move t) {d : Session} (hd : t.session = some d) :
    ∃ d', s.session = some d' ∧ d.port = d'.port ∧ d.addr = d'.addr ∧ d.leaseSecs = d'.leaseSecs := by
  have same : t.session = s.session → ∃ d', s.session = some d' ∧ d.port = d'.port ∧ d.addr = d'.addr ∧
      d.leaseSecs = d'.leaseSecs := fun h => ⟨d, h ▸ hd, rfl, rfl, rfl⟩
  cases h with
  | session d0 h0 => exact h0 d hd
  | softRestart p k => cases hd
  | portRestart p q k => exact same (by rw [State.portRestart_eq]; cases p <;> cases q <;> simp <;> rfl)
  | timeOut f n => exact same (by simp; rfl)
  | respond | respondTrigger => exact same (by simp; rfl)
  | count | pins | meters | tags | request | hold => exact same rfl
  | _ => exact same (by simp [State.lifted, State.enqueue, State.vacate])

/-! ### The manager table, read through its stations (R134, R135) -/

/-- A station of the table with right WRITE at this port and address is found there. -/
def writesIn (ks : List (Port × Byte × Right)) (p : Port) (a : Byte) : Bool :=
  (ks.find? fun k => k.1 == p && k.2.1 == a).any fun k => k.2.2 == .write

theorem State.manager_writes (s : State) (p : Port) (a : Byte) :
    (s.manager p a).any (fun e => e.right == .write) = writesIn (stations s.managers) p a := by
  rw [writesIn, stations, List.find?_map, Option.any_map]
  rfl

theorem State.SessionSound.iff (s : State) : s.SessionSound ↔ ∀ d, s.session = some d →
    writesIn (stations s.managers) d.port d.addr = true ∧ 1 ≤ d.leaseSecs ∧ d.leaseSecs ≤ 120 := by
  simp only [State.SessionSound, Option.mem_toList, State.manager_writes]

theorem State.Move.keeps_session {s t : State} (hs : s.SessionSound) (h : s.Move t) : t.SessionSound := by
  refine (State.SessionSound.iff t).mpr fun d hd => ?_
  obtain ⟨d', hd', hp, ha, hl⟩ := h.session_of hd
  rw [h.stations, hp, ha, hl]
  exact (State.SessionSound.iff s).mp hs d' hd'

/-- What the manager table's bounds say of its stations alone. -/
def StationsSound (ks : List (Port × Byte × Right)) : Prop :=
  ks.length ≤ Config.managerCap ∧ (ks.map fun k => (k.1, k.2.1)).Nodup ∧ ∀ k ∈ ks, k.2.1 ≠ 255

theorem State.ManagersSound.iff (s : State) :
    s.ManagersSound ↔ StationsSound (stations s.managers) ∧ ∀ m ∈ s.agentQueue, m.requester ≠ 255 := by
  simp only [State.ManagersSound, StationsSound, stations, List.length_map, List.map_map, Function.comp_def,
    List.forall_mem_map, and_assoc]

theorem State.Move.keeps_managers {s t : State} (hs : s.ManagersSound) (h : s.Move t) : t.ManagersSound := by
  rw [State.ManagersSound.iff, h.stations]
  obtain ⟨hk, hq⟩ := (State.ManagersSound.iff s).mp hs
  refine ⟨hk, fun m hm => ?_⟩
  rcases h.agentQueue_mem hm with hm | ⟨p, f, rfl, hf⟩
  · exact hq m hm
  · exact hf

/-! ### The changes of the table (R47, R152, R153) -/

theorem State.manager_none {s : State} {p : Port} {a : Byte} (h : s.manager p a = none) :
    ∀ e ∈ s.managers, ¬(e.port = p ∧ e.addr = a) := by
  intro e he heq
  have := List.find?_eq_none.mp h e he
  simp [Manager.is, heq] at this

theorem State.dropSession_session (s : State) (p : Port) (a : Byte) :
    (s.dropSession p a).session = if s.ownsSession p a then none else s.session := by
  unfold State.dropSession
  split <;> rfl

theorem State.dropSession_managers (s : State) (p : Port) (a : Byte) : (s.dropSession p a).managers = s.managers := by
  unfold State.dropSession
  split <;> rfl

theorem State.changeRight_managers (s : State) (p : Port) (a : Byte) (was r : Right) :
    (s.changeRight p a was r).managers = s.managers.map fun e => if e.is p a then { e with right := r } else e := by
  unfold State.changeRight
  dsimp only
  split
  · rw [State.dropSession_managers]; rfl
  · rfl

theorem State.changeRight_session (s : State) (p : Port) (a : Byte) (was r : Right) :
    (s.changeRight p a was r).session =
      if was = .write ∧ r = .read ∧ s.ownsSession p a = true then none else s.session := by
  unfold State.changeRight
  dsimp only
  by_cases h : was = .write ∧ r = .read
  · rw [if_pos h, State.dropSession_session]
    simp only [h, true_and]
    rfl
  · rw [if_neg h, if_neg fun h' => h ⟨h'.1, h'.2.1⟩]
    rfl

/-- A session whose owner is not this station is another's: its owner's entry is another entry. -/
theorem State.ownsSession_false {s : State} {p : Port} {a : Byte} {d : Session} (hd : s.session = some d)
    (h : ¬s.ownsSession p a = true) : ¬(d.port = p ∧ d.addr = a) := fun hk =>
  h ((State.ownsSession_iff s p a).mpr ⟨d, hd, hk⟩)

theorem State.Change.keeps_managers {c : Instr} {s t : State} (hs : s.ManagersSound) (h : s.Change c t) :
    t.ManagersSound := by
  obtain ⟨hq, -⟩ := h.frame
  obtain ⟨hlen, hnodup, haddr, hreq⟩ := hs
  have same : t.managers = s.managers → t.ManagersSound := by
    intro hm
    rw [State.ManagersSound, hm, hq]
    exact ⟨hlen, hnodup, haddr, hreq⟩
  cases h with
  | addManager dt en p a r hnone ha hcap =>
    refine ⟨?_, ?_, ?_, hreq⟩
    · simp only [State.addManager, List.length_append, List.length_singleton]; omega
    · simp only [State.addManager, List.map_append, List.map_cons, List.map_nil]
      refine List.nodup_append.mpr ⟨hnodup, List.nodup_singleton _, ?_⟩
      rintro k hk k' hk' rfl
      obtain ⟨e, he, heq⟩ := List.mem_map.mp hk
      rw [List.mem_singleton] at hk'
      cases heq.trans hk'
      exact State.manager_none hnone e he ⟨rfl, rfl⟩
    · intro e he
      rcases List.mem_append.mp he with he | he
      · exact haddr e he
      · rw [List.mem_singleton.mp he]
        rcases ha with ha | ⟨m, hm, rfl⟩
        · exact ha
        · exact hreq m hm
  | changeRight dt en p a e r =>
    have hkeys : ∀ x : Manager, (if x.is p a then { x with right := r } else x : Manager).port = x.port ∧
        (if x.is p a then { x with right := r } else x : Manager).addr = x.addr := fun x => by
      split <;> exact ⟨rfl, rfl⟩
    refine ⟨?_, ?_, ?_, by rw [hq]; exact hreq⟩
    · rw [State.changeRight_managers, List.length_map]; exact hlen
    · rw [State.changeRight_managers, List.map_map]
      simpa only [Function.comp_def, hkeys] using hnodup
    · rw [State.changeRight_managers, List.forall_mem_map]
      intro x hx
      rw [(hkeys x).2]
      exact haddr x hx
  | dismiss dt en p a =>
    have hmem := State.dropSession_managers { s with managers := s.managers.filter fun x => !x.is p a } p a
    refine ⟨?_, ?_, ?_, by rw [hq]; exact hreq⟩
    · rw [hmem]; exact (List.length_filter_le _ _).trans hlen
    · rw [hmem]; exact hnodup.sublist (List.filter_sublist.map _)
    · rw [hmem]; exact fun x hx => haddr x (List.mem_of_mem_filter hx)
  | openSession => exact same (by simp [State.openSession])
  | zeroGroup dt g => exact same (by cases g <;> simp [State.zeroGroup])
  | swap => exact same rfl
  | _ => exact same (by simp)

/-- The lookup of one station is not moved by what happens to the entries of others. -/
theorem State.manager_other {s t : State} {p q : Port} {a b : Byte} (hne : ¬(q = p ∧ b = a))
    (h : (s.managers.filter fun e => !e.is p a) = t.managers.filter fun e => !e.is p a) :
    t.manager q b = s.manager q b := by
  have hkeep : ∀ ms : List Manager, (ms.filter fun e => !e.is p a).find? (·.is q b) = ms.find? (·.is q b) := by
    intro ms
    rw [List.find?_filter]
    refine congrArg (List.find? · ms) (funext fun e => ?_)
    by_cases he : e.is q b = true
    · have : e.is p a = false := by
        simp only [Manager.is, Bool.and_eq_true, beq_iff_eq] at he
        simp only [Manager.is, he.1, he.2]
        simpa using fun h1 h2 => hne ⟨h1, h2⟩
      simp [he, this]
    · simp [he]
  rw [State.manager, State.manager, ← hkeep t.managers, ← h, hkeep]

theorem State.Change.keeps_session {c : Instr} {s t : State} (hs : s.SessionSound) (h : s.Change c t) :
    t.SessionSound := by
  have same : t.managers = s.managers → t.session = s.session → t.SessionSound := by
    intro hm hd
    have hf : ∀ p a, t.manager p a = s.manager p a := fun p a => by rw [State.manager, hm, State.manager]
    rw [State.SessionSound, hd]
    simpa only [hf] using hs
  have owner : ∀ {d}, s.session = some d → (s.manager d.port d.addr).any (fun e => e.right == .write) = true ∧
      1 ≤ d.leaseSecs ∧ d.leaseSecs ≤ 120 := fun hd => hs _ (by simp [hd])
  cases h with
  | swap => intro d hd; cases hd
  | openSession dt m secs mode e hm hw h1 h2 =>
    intro d hd
    have hd' : d = ⟨m.port, m.requester, secs, s.now + secs * 1000⟩ := by
      simpa [State.openSession, eq_comm] using hd
    have hf : ∀ p a, (s.openSession m secs mode).manager p a = s.manager p a := fun p a => by
      simp [State.manager, State.openSession]
    rw [hd', hf]
    exact ⟨by simp [hm, hw], h1, h2⟩
  | addManager dt en p a r =>
    intro d hd
    obtain ⟨hw, hl⟩ := owner (Option.mem_toList.mp hd)
    refine ⟨?_, hl⟩
    rw [State.manager, State.addManager, List.find?_append]
    rw [State.manager] at hw
    cases hf : s.managers.find? (·.is d.port d.addr) with
    | none => rw [hf] at hw; cases hw
    | some e => rw [hf] at hw; exact hw
  | changeRight dt en p a e r hm =>
    intro d hd
    rw [Option.mem_toList, State.changeRight_session] at hd
    split at hd
    · cases hd
    · rename_i hno
      obtain ⟨hw, hl⟩ := owner hd
      refine ⟨?_, hl⟩
      by_cases hk : d.port = p ∧ d.addr = a
      · obtain ⟨hp, ha⟩ := hk
        have howns : s.ownsSession p a = true := (State.ownsSession_iff s p a).mpr ⟨d, hd, hp, ha⟩
        rw [hp, ha] at hw ⊢
        have hew : e.right = .write := by simpa [hm] using hw
        have hrw : r = .write := by
          cases r with
          | write => rfl
          | read => exact absurd ⟨hew, rfl, howns⟩ hno
        rw [State.manager, State.changeRight_managers, List.find?_map]
        have hkeys : ((fun x => x.is p a) ∘ fun x : Manager => if x.is p a then { x with right := r } else x) =
            fun x => x.is p a := funext fun x => by
          simp only [Function.comp_apply]
          split <;> rfl
        rw [hkeys]
        have hm' : s.managers.find? (·.is p a) = some e := hm
        have his : e.is p a = true := List.find?_some (p := fun x : Manager => x.is p a) hm'
        simp [hm', his, hrw]
      · rwa [State.manager_other hk]
        rw [State.changeRight_managers, List.filter_map]
        have hkeys : ((fun x => !x.is p a) ∘ fun x : Manager => if x.is p a then { x with right := r } else x) =
            fun x => !x.is p a := funext fun x => by
          simp only [Function.comp_apply]
          split <;> rfl
        rw [hkeys, List.map_congr_left (g := id), List.map_id]
        intro x hx
        simp [by simpa using (List.mem_filter.mp hx).2]
  | dismiss dt en p a =>
    intro d hd
    rw [Option.mem_toList, State.dropSession_session] at hd
    split at hd
    · cases hd
    · rename_i hno
      obtain ⟨hw, hl⟩ := owner hd
      have hk : ¬(d.port = p ∧ d.addr = a) := State.ownsSession_false (s := s) hd hno
      refine ⟨?_, hl⟩
      rwa [State.manager_other hk]
      rw [State.dropSession_managers]
      simp
  | zeroGroup dt g => exact same (by cases g <;> simp [State.zeroGroup]) (by cases g <;> simp [State.zeroGroup])
  | _ => exact same (by simp) (by simp)

/-- Settles O10: moves leave the stations of the table and the session's owner alone; ENROL appends a station that is
not listed or changes a right, DISMISS filters, and each ends the session whose owner it takes the right from. -/
theorem stepKeepsManagersAndOwner : Obligations.StepKeepsManagersAndOwner := by
  intro s t hs h
  refine step_keeps (P := fun s => s.ManagersSound ∧ s.SessionSound) (fun s d rest hs => hs) ?move ?change ?reset hs h
  case move =>
    rintro s t ⟨hm, hd⟩ h
    exact ⟨h.keeps_managers hm, h.keeps_session hd⟩
  case change =>
    rintro c s t ⟨hm, hd⟩ h
    exact ⟨h.keeps_managers hm, h.keeps_session hd⟩
  case reset =>
    intro q rest
    refine ⟨⟨Nat.zero_le _, List.nodup_nil, ?_, ?_⟩, ?_⟩ <;> intro x hx <;> cases hx

/-! ### Meters and parameters (R27, R66, R82, R129) -/

theorem State.ParamsSound.iff (s : State) : s.ParamsSound ↔ ∀ r, (s.port r).ParamsSound :=
  ⟨fun h r => by cases r; exacts [h.1, h.2], fun h => ⟨h .A, h .B⟩⟩

theorem PortState.Move.keeps_params {x y : PortState} (hx : x.ParamsSound) (h : x.Move y) : y.ParamsSound := by
  obtain ⟨hp, hf, hg⟩ := hx
  cases h with
  | quiet h => exact ⟨h.params ▸ hp, h.inForce ▸ hf, h.staged ▸ hg⟩
  | lift h z _ hh =>
    rw [PortState.head_eq hh]
    exact ⟨hp, hf, hg⟩
  | normal | urgent | vacate | flush => exact ⟨hp, hf, hg⟩
  | restart i z l hz =>
    refine ⟨?_, ?_, ?_⟩
    · exact (show z.params.Sound from hz.params ▸ hp)
    · exact (show z.staged.Sound from hz.staged ▸ hg)
    · exact (show z.staged.Sound from hz.staged ▸ hg)

theorem State.Move.keeps_params {s t : State} (hs : s.ParamsSound) (h : s.Move t) : t.ParamsSound :=
  (State.ParamsSound.iff t).mpr fun r => (h.port_move r).keeps_params ((State.ParamsSound.iff s).mp hs r)

theorem State.MetersSound.iff (s : State) : s.MetersSound ↔ ∀ i : Fin 16, s.meters[i].Sound := by
  simp only [State.MetersSound, Vector.mem_toList_iff, Vector.mem_iff_getElem, forall_exists_index]
  exact ⟨fun h i => h _ i.val i.isLt rfl, fun h m i hi hm => hm ▸ h ⟨i, hi⟩⟩

theorem Meter.Sound.refilledAt {m : Meter} (h : m.Sound) (t : Nat) : (m.refilledAt t).Sound := by
  obtain ⟨-, hc, hr, hi, hi'⟩ := h
  exact ⟨Nat.le_refl _, hc, hr, hi, hi'⟩

theorem State.Move.keeps_meters {s t : State} (hs : s.MetersSound) (h : s.Move t) : t.MetersSound := by
  have same : t.meters = s.meters → t.MetersSound := fun hm => by rw [State.MetersSound, hm]; exact hs
  cases h with
  | meters v hv => exact (State.MetersSound.iff _).mpr fun i => hv i ((State.MetersSound.iff s).mp hs i)
  | softRestart p k =>
    refine (State.MetersSound.iff _).mpr fun i => ?_
    have hm : (s.triggered p).meters = s.meters := by simp [State.triggered, State.vacate]
    have hi : (s.triggered p).softRestart.meters[i] = s.meters[i].refilledAt (s.triggered p).now := by
      simp [State.softRestart, hm]
    rw [hi]
    exact ((State.MetersSound.iff s).mp hs i).refilledAt _
  | portRestart p q k =>
    exact same (by
      rw [State.portRestart_eq]
      simp [State.restartedAt, State.raiseFlushed, State.raiseTxBy, State.triggered, State.vacate])
  | timeOut f n => exact same (by simp; rfl)
  | respond | respondTrigger => exact same (by simp; rfl)
  | count | pins | session | tags | request | hold => exact same rfl
  | _ => exact same (by simp [State.lifted, State.enqueue, State.vacate])

/-- A field of a parameter block is the one given, in its range, or the value kept (R164). -/
theorem ParamBlock.pick_range {given : Bool} {v kept lo hi : Nat} (hv : !given || (decide (lo ≤ v) && decide (v ≤ hi)))
    (hk : lo ≤ kept ∧ kept ≤ hi) :
    lo ≤ (if given = true then v else kept) ∧ (if given = true then v else kept) ≤ hi := by
  cases given
  · exact hk
  · simpa using hv

theorem PortState.ParamsSound.applyBlock {x : PortState} (hx : x.ParamsSound) {b : ParamBlock}
    (hr : b.inRange = true) (hg : (b.params x.params).gapsOrdered = true) : (x.applyBlock b).ParamsSound := by
  obtain ⟨hp, hf, hs⟩ := hx
  obtain ⟨r1, r2, u1, u2, n1, n2, -, -, w1, w2, rl, bl, h1, h2, dl, al, dw⟩ := hp
  obtain ⟨so, sq1, sq2⟩ := hs
  simp only [ParamBlock.inRange, Bool.and_eq_true, and_assoc] at hr
  obtain ⟨-, -, i0, i1, i2, i3, i4, i6, i7, i8, i9, i10, -, i12, i13⟩ := hr
  simp only [Params.gapsOrdered, Bool.and_eq_true, decide_eq_true_eq] at hg
  have replyWait := ParamBlock.pick_range i0 ⟨r1, r2⟩
  have urgentGap := ParamBlock.pick_range i1 ⟨u1, u2⟩
  have normalGap := ParamBlock.pick_range i2 ⟨n1, n2⟩
  have window := ParamBlock.pick_range i3 ⟨w1, w2⟩
  have retryLimit := ParamBlock.pick_range i4 ⟨Nat.zero_le _, rl⟩
  have busyLimit := ParamBlock.pick_range i6 ⟨Nat.zero_le _, bl⟩
  have busyHold := ParamBlock.pick_range i7 ⟨h1, h2⟩
  have deferLimit := ParamBlock.pick_range i8 ⟨Nat.zero_le _, dl⟩
  have ageLimit := ParamBlock.pick_range i9 ⟨Nat.zero_le _, al⟩
  have dupWindow := ParamBlock.pick_range i10 ⟨Nat.zero_le _, dw⟩
  have queueLimit := ParamBlock.pick_range i13 ⟨sq1, sq2⟩
  refine ⟨⟨replyWait.1, replyWait.2, urgentGap.1, urgentGap.2, normalGap.1, normalGap.2, hg.1, hg.2, window.1, window.2,
    retryLimit.2, busyLimit.2, busyHold.1, busyHold.2, deferLimit.2, ageLimit.2, dupWindow.2⟩, hf, ?_,
    queueLimit.1, queueLimit.2⟩
  show (if b.given 12 = true then byteAt b.bytes 22 else x.staged.own) ≠ 255
  cases hgiven : b.given 12
  · exact so
  · intro h255
    simp [hgiven] at i12 h255
    simp [h255] at i12

theorem State.Change.keeps_ranges {c : Instr} {s t : State} (hs : s.MetersSound ∧ s.ParamsSound)
    (h : s.Change c t) : t.MetersSound ∧ t.ParamsSound := by
  obtain ⟨hm, hp⟩ := hs
  refine ⟨?_, (State.ParamsSound.iff t).mpr fun r => ?_⟩
  · obtain ⟨-, -, -, hmeters, -⟩ := h.frame
    rw [State.MetersSound, hmeters]
    exact hm
  · have hr := (State.ParamsSound.iff s).mp hp r
    have same : (t.port r).params = (s.port r).params → (t.port r).inForce = (s.port r).inForce →
        (t.port r).staged = (s.port r).staged → (t.port r).ParamsSound := by
      intro h1 h2 h3
      rw [PortState.ParamsSound, h1, h2, h3]
      exact hr
    cases h with
    | setPort dt p b hrange hgaps =>
      rw [State.port_modPort]
      split
      · rename_i hrp
        subst hrp
        exact hr.applyBlock hrange hgaps
      · exact hr
    | zeroGroup dt g =>
      cases g with
      | agent => cases r <;> exact hr
      | rx p | tx p => exact same (by simp [State.zeroGroup]) (by simp [State.zeroGroup]) (by simp [State.zeroGroup])
    | swap | addManager => cases r <;> exact hr
    | changeRight => rw [State.changeRight_eq]; cases r <;> exact hr
    | dismiss => rw [State.dropSession_eq]; cases r <;> exact hr
    | openSession =>
      refine same ?_ ?_ ?_ <;> simp [State.openSession] <;> cases r <;> rfl
    | _ => exact same (by simp) (by simp) (by simp)

theorem powerOn_paramsSound (a : BitVec 5) (r : BitVec 2) : (powerOnPort a r).ParamsSound := by
  have hs : (strapSettings a r).Sound := by
    refine ⟨?_, show 4 ≤ 24 by decide, show 24 ≤ 30 by decide⟩
    show strapAddress a ≠ 255
    revert a
    decide
  exact ⟨show powerOnParams.Sound by decide, hs, hs⟩

/-- Settles O11: SET-METER and SET-PORT check what they write, a charge and a refill stay between 0 and the capacity,
and a restart fills meters to it and puts in force what was staged. -/
theorem stepKeepsRanges : Obligations.StepKeepsRanges := by
  intro s t hs h
  refine step_keeps (P := fun s => s.MetersSound ∧ s.ParamsSound) (fun s d rest hs => hs) ?move
    (fun hs h => h.keeps_ranges hs) ?reset hs h
  case move =>
    rintro s t ⟨hm, hp⟩ h
    exact ⟨h.keeps_meters hm, h.keeps_params hp⟩
  case reset =>
    intro q rest
    refine ⟨fun m hm => ?_, powerOn_paramsSound _ _, powerOn_paramsSound _ _⟩
    obtain ⟨-, rfl⟩ := List.mem_replicate.mp (show m ∈ List.replicate 16 powerOnMeter from hm)
    decide

end Sys2Proof.Machine
end

section
/-! PROOF. The rules of the whole part: what moves the designation, the banks, the manager table, the clock and the
counters (O12 to O16). Moves touch none of the first four and lower no counter, so each exception is one change. -/

namespace Sys2Proof.Machine

/-! ### What a chain of moves keeps -/

/-- What a chain of moves cannot change, beside the clock, and what it cannot lower. -/
structure State.Holds (s t : State) : Prop where
  active : t.active = s.active
  commitCount : t.commitCount = s.commitCount
  bank : ∀ n, t.bank n = s.bank n
  stations : Machine.stations t.managers = Machine.stations s.managers
  session : s.session = none → t.session = none
  rxCounters : ∀ r (i : Fin 18), (s.port r).rx.counters[i] ≤ (t.port r).rx.counters[i]
  txCounters : ∀ r (i : Fin 17), (s.port r).tx.counters[i] ≤ (t.port r).tx.counters[i]
  agentCounters : ∀ i : Fin 11, s.agentCounters[i] ≤ t.agentCounters[i]

theorem State.Holds.refl (s : State) : s.Holds s :=
  ⟨rfl, rfl, fun _ => rfl, rfl, id, fun _ _ => BitVec.le_refl _, fun _ _ => BitVec.le_refl _,
    fun _ => BitVec.le_refl _⟩

theorem State.Holds.trans {s t u : State} (h : s.Holds t) (k : t.Holds u) : s.Holds u where
  active := k.active.trans h.active
  commitCount := k.commitCount.trans h.commitCount
  bank n := (k.bank n).trans (h.bank n)
  stations := k.stations.trans h.stations
  session hs := k.session (h.session hs)
  rxCounters r i := BitVec.le_trans (h.rxCounters r i) (k.rxCounters r i)
  txCounters r i := BitVec.le_trans (h.txCounters r i) (k.txCounters r i)
  agentCounters i := BitVec.le_trans (h.agentCounters i) (k.agentCounters i)

theorem PortState.Move.counters {x y : PortState} (h : x.Move y) :
    (∀ i : Fin 18, x.rx.counters[i] ≤ y.rx.counters[i]) ∧ ∀ i : Fin 17, x.tx.counters[i] ≤ y.tx.counters[i] := by
  have same : (∀ i : Fin 18, x.rx.counters[i] ≤ x.rx.counters[i]) ∧ ∀ i : Fin 17, x.tx.counters[i] ≤ x.tx.counters[i] :=
    ⟨fun _ => BitVec.le_refl _, fun _ => BitVec.le_refl _⟩
  cases h with
  | quiet h => exact ⟨h.rxCounters, h.txCounters⟩
  | lift h z _ hh => rw [PortState.head_eq hh]; exact same
  | normal | urgent | vacate => exact same
  | restart i z l hz => exact ⟨hz.rxCounters, hz.txCounters⟩
  | flush c n l => exact ⟨fun _ => BitVec.le_refl _, fun _ => le_raiseAt _ _ _ _⟩

theorem State.Move.agentCounters {s t : State} (h : s.Move t) (i : Fin 11) :
    s.agentCounters[i] ≤ t.agentCounters[i] := by
  have same : t.agentCounters = s.agentCounters → s.agentCounters[i] ≤ t.agentCounters[i] := fun he =>
    he ▸ BitVec.le_refl _
  have raised : ∀ c : AgentCounter, t.agentCounters = raiseAt s.agentCounters c.index 1 →
      s.agentCounters[i] ≤ t.agentCounters[i] := fun c he => he ▸ le_raiseAt _ _ _ _
  cases h with
  | count v hv => exact hv i
  | portRestart p q k =>
    refine raised .portRestarts ?_
    rw [State.portRestart_eq]
    simp [State.restartedAt, State.raiseFlushed, State.raiseTxBy, State.triggered, State.vacate]
  | softRestart p k =>
    exact raised .restarts
      (by simp [State.softRestart, State.raiseFlushed, State.raiseTxBy, State.triggered, State.vacate])
  | timeOut f n => exact same (by simp [State.flushed, State.flushOld, State.raiseTxBy])
  | respond | respondTrigger => exact same (by simp; rfl)
  | pins | meters | session | tags | request | hold => exact same rfl
  | _ => exact same (by simp [State.lifted, State.enqueue, State.vacate])

theorem State.Move.holds {s t : State} (h : s.Move t) : s.Holds t := by
  obtain ⟨-, hactive, hX, hY, hcount⟩ := h.frame
  refine ⟨hactive, hcount, fun n => ?_, h.stations, fun hs => ?_, fun r => (h.port_move r).counters.1,
    fun r => (h.port_move r).counters.2, h.agentCounters⟩
  · cases n
    · exact hX
    · exact hY
  · cases ht : t.session with
    | none => rfl
    | some d =>
      obtain ⟨d', hd', -⟩ := h.session_of ht
      rw [hs] at hd'
      cases hd'

theorem State.Moves.holds {s t : State} (h : s.Moves t) : s.Holds t := by
  induction h with
  | refl => exact .refl s
  | tail _ hlast ih => exact ih.trans hlast.holds

theorem State.Moves.clock {s t : State} (h : s.Moves t) : t.clock = s.clock := by
  induction h with
  | refl => rfl
  | tail _ hlast ih => exact hlast.frame.1.trans ih

theorem State.elapse_holds (s : State) (dt : Nat) : s.Holds (s.elapse dt) :=
  ⟨rfl, rfl, fun n => s.elapse_bank dt n, rfl, id, fun r _ => by cases r <;> exact BitVec.le_refl _,
    fun r _ => by cases r <;> exact BitVec.le_refl _, fun _ => BitVec.le_refl _⟩

/-! ### The designation (R38, R48) -/

/-- A change moves the designation and the commit count at a commit alone. -/
theorem State.Change.designation {c : Instr} {s t : State} (h : s.Change c t) :
    (t.active = s.active ∧ t.commitCount = s.commitCount) ∨
      (rowOf c = some (some .commit) ∧ t.active = s.active.other ∧ t.commitCount = s.commitCount + 1 ∧
        t.session = none) := by
  cases h with
  | swap => exact .inr ⟨rfl, rfl, rfl, rfl⟩
  | zeroGroup dt g => cases g <;> simp [State.zeroGroup]
  | changeRight => left; rw [State.changeRight_eq]; exact ⟨rfl, rfl⟩
  | dismiss => left; rw [State.dropSession_eq]; exact ⟨rfl, rfl⟩
  | addManager => exact .inl ⟨rfl, rfl⟩
  | openSession => left; simp [State.openSession]
  | _ => left; simp

/-- Settles O12: no move touches the designation or the commit count, and the one change that does is a commit's swap,
after which no move opens a session. -/
theorem designationMovesOnlyAtCommit : Obligations.DesignationMovesOnlyAtCommit := by
  intro c s t hc h
  obtain ⟨u, v, hsu, huv, hvt⟩ := exec_event hc h
  have hu := hsu.holds
  have hv := hvt.holds
  rw [hv.active, hv.commitCount]
  have before : u.active = s.active ∧ u.commitCount = s.commitCount := ⟨hu.active, hu.commitCount⟩
  rcases huv with rfl | hch
  · exact .inl before
  · rw [← before.1, ← before.2]
    rcases hch.designation with hsame | ⟨hrow, ha, hcc, hd⟩
    · exact .inl hsame
    · exact .inr ⟨hrow, ha, hcc, hv.session hd⟩

/-! ### The clock (R92) and the stations of the manager table (R134) -/

theorem State.Change.clock {c : Instr} {s t : State} (h : s.Change c t) : t.clock = s.clock := by
  obtain ⟨-, -, -, -, hclock, -⟩ := h.frame
  exact hclock

/-- Settles O15: the clock advances by the command's `dt` before the event, and no move or change of it touches it. -/
theorem clockRunsThroughEveryCommand : Obligations.ClockRunsThroughEveryCommand := by
  intro c s t hc h
  obtain ⟨u, v, hsu, huv, hvt⟩ := exec_event hc h
  have hclock : t.clock = s.clock + dtOf c := by
    rw [hvt.clock]
    rcases huv with rfl | hch
    · exact hsu.clock
    · exact hch.clock.trans hsu.clock
  exact ⟨hclock, Nat.div_le_div_right (by omega)⟩

theorem State.Change.stations {c : Instr} {s t : State} (h : s.Change c t) :
    Machine.stations t.managers = Machine.stations s.managers ∨ rowOf c = some (some .enrol) ∨
      rowOf c = some (some .dismiss) := by
  cases h with
  | addManager | changeRight => exact .inr (.inl rfl)
  | dismiss => exact .inr (.inr rfl)
  | zeroGroup dt g => left; cases g <;> simp [State.zeroGroup]
  | swap => exact .inl rfl
  | openSession => left; simp [State.openSession]
  | _ => left; simp

/-- Settles O14: moves write tags and cached responses alone, and the changes of the table are those of ENROL and
DISMISS. -/
theorem managersChangeOnlyByEnrolAndDismiss : Obligations.ManagersChangeOnlyByEnrolAndDismiss := by
  intro c s t hc h
  obtain ⟨u, v, hsu, huv, hvt⟩ := exec_event hc h
  have hu : stations u.managers = stations s.managers := hsu.holds.stations
  have hv : stations t.managers = stations v.managers := hvt.holds.stations
  rcases huv with rfl | hch
  · exact .inl (hv.trans hu)
  · rcases hch.stations with hsame | hrow
    · exact .inl (hv.trans (hsame.trans hu))
    · exact .inr hrow

/-! ### The counters (R171 to R175) -/

theorem State.Change.counters {c : Instr} {s t : State} (h : s.Change c t) (hc : rowOf c ≠ some (some .readCounters)) :
    t.agentCounters = s.agentCounters ∧
      ∀ r, (t.port r).rx.counters = (s.port r).rx.counters ∧ (t.port r).tx.counters = (s.port r).tx.counters := by
  cases h with
  | zeroGroup => exact absurd rfl hc
  | swap | addManager => exact ⟨rfl, fun r => by cases r <;> exact ⟨rfl, rfl⟩⟩
  | setPort dt p b => exact ⟨by simp, fun r => by rw [State.port_modPort]; split <;> simp_all [PortState.applyBlock]⟩
  | changeRight => rw [State.changeRight_eq]; exact ⟨rfl, fun r => by cases r <;> exact ⟨rfl, rfl⟩⟩
  | dismiss => rw [State.dropSession_eq]; exact ⟨rfl, fun r => by cases r <;> exact ⟨rfl, rfl⟩⟩
  | openSession => exact ⟨by simp [State.openSession], fun r => by simp [State.openSession]; cases r <;> exact ⟨rfl, rfl⟩⟩
  | _ => exact ⟨by simp, fun r => by simp⟩

/-- Settles O16: moves only raise counters, and the one change that lowers them is that of READ-COUNTERS. -/
theorem countersFallOnlyWhenRead : Obligations.CountersFallOnlyWhenRead := by
  intro c s t hc hrow h
  obtain ⟨u, v, hsu, huv, hvt⟩ := exec_event hc h
  have hu := (s.elapse_holds (dtOf c)).trans hsu.holds
  have hv := hvt.holds
  have same : v.agentCounters = u.agentCounters ∧
      ∀ r, (v.port r).rx.counters = (u.port r).rx.counters ∧ (v.port r).tx.counters = (u.port r).tx.counters := by
    rcases huv with rfl | hch
    · exact ⟨rfl, fun r => ⟨rfl, rfl⟩⟩
    · exact hch.counters hrow
  obtain ⟨hagent, hport⟩ := same
  refine ⟨fun p k => ?_, fun p k => ?_, fun k => ?_⟩
  · exact BitVec.le_trans (hu.rxCounters p k.index) ((hport p).1 ▸ hv.rxCounters p k.index)
  · exact BitVec.le_trans (hu.txCounters p k.index) ((hport p).2 ▸ hv.txCounters p k.index)
  · exact BitVec.le_trans (hu.agentCounters k.index) (hagent ▸ hv.agentCounters k.index)

/-! ### The banks (R3, R4, R7) -/

theorem RuleEntry.spend_eq (e : RuleEntry) :
    e.spend = if e.oneShot = .armed then { e with oneShot := .spent } else e := by
  unfold RuleEntry.spend
  cases e.oneShot <;> rfl

theorem Bank.taken_at (b : Bank) (path : List (Fin 128)) (i : Fin 128) :
    ((b.taken path).entries[i] = b.entries[i] ∧ (b.taken path).hits[i] = b.hits[i]) ∨
      ((b.taken path).entries[i] =
          (if b.entries[i].oneShot = .armed then { b.entries[i] with oneShot := .spent } else b.entries[i]) ∧
        (b.taken path).hits[i] = satAdd b.hits[i] 1) := by
  by_cases hi : i ∈ path
  · exact .inr ⟨by simp [Bank.taken, hi, RuleEntry.spend_eq], by simp [Bank.taken, hi]⟩
  · exact .inl ⟨by simp [Bank.taken, hi], by simp [Bank.taken, hi]⟩

theorem Bank.zeroHits_at (b : Bank) (first count : Nat) (i : Fin 128) :
    (b.zeroHits first count).hits[i] = b.hits[i] ∨ (b.zeroHits first count).hits[i] = 0 := by
  by_cases hi : first ≤ i.val ∧ i.val < first + count
  · exact .inr (by simp [Bank.zeroHits, hi])
  · exact .inl (by simp [Bank.zeroHits, hi])

theorem Bank.taken_profiles (b : Bank) (path : List (Fin 128)) : (b.taken path).profiles = b.profiles := by
  simp only [Bank.taken]

theorem Bank.zeroHits_entries (b : Bank) (first count : Nat) : (b.zeroHits first count).entries = b.entries := by
  simp only [Bank.zeroHits]

theorem Bank.zeroHits_profiles (b : Bank) (first count : Nat) : (b.zeroHits first count).profiles = b.profiles := by
  simp only [Bank.zeroHits]

/-- What a change can do to the active and to the standby bank. -/
theorem State.Change.banks {c : Instr} {s t : State} (h : s.Change c t) :
    (t.bank s.active.other = s.bank s.active.other ∨
      rowOf c = some (some .openEdit) ∨ rowOf c = some (some .writeRule) ∨ rowOf c = some (some .writeProfile) ∨
      rowOf c = some (some .readHits)) ∧
    (t.bank s.active = s.bank s.active ∨
      (rowOf c = some (some .readHits) ∧ ∃ first count, t.bank s.active = (s.bank s.active).zeroHits first count) ∨
      ((∃ dt p, c = .frameEnd dt p) ∧ ∃ path, t.bank s.active = (s.bank s.active).taken path)) := by
  have same : (∀ n, t.bank n = s.bank n) → t.bank s.active.other = s.bank s.active.other ∧
      t.bank s.active = s.bank s.active := fun h => ⟨h _, h _⟩
  cases h with
  | taken dt p path =>
    exact ⟨.inl (State.bank_modBank_ne _ (BankName.other_ne _) _),
      .inr (.inr ⟨⟨dt, p, rfl⟩, path, State.bank_modBank_same ..⟩)⟩
  | zeroHits dt n first count =>
    refine ⟨.inr (.inr (.inr (.inr rfl))), ?_⟩
    by_cases hn : s.active = n
    · exact .inr (.inl ⟨rfl, first, count, hn ▸ State.bank_modBank_same ..⟩)
    · exact .inl (State.bank_modBank_ne _ hn _)
  | writeRule dt i e => exact ⟨.inr (.inr (.inl rfl)), .inl (State.bank_modBank_ne _ (BankName.ne_other _) _)⟩
  | writeProfile dt i q =>
    exact ⟨.inr (.inr (.inr (.inl rfl))), .inl (State.bank_modBank_ne _ (BankName.ne_other _) _)⟩
  | openSession dt m secs mode =>
    refine ⟨.inr (.inl rfl), .inl ?_⟩
    exact (State.bank_modBank_ne _ (BankName.ne_other s.active) _).trans (by cases s.active <;> rfl)
  | swap | addManager => exact (same fun n => by cases n <;> rfl).imp .inl .inl
  | changeRight =>
    exact (same fun n => by rw [State.changeRight_eq]; cases n <;> rfl).imp .inl .inl
  | dismiss => exact (same fun n => by rw [State.dropSession_eq]; cases n <;> rfl).imp .inl .inl
  | zeroGroup dt g =>
    cases g with
    | agent => exact (same fun n => by cases n <;> rfl).imp .inl .inl
    | rx p | tx p => exact (same fun n => State.modPort_bank _ _ _ _).imp .inl .inl
  | setPort => exact (same fun n => State.modPort_bank _ _ _ _).imp .inl .inl

/-- Settles O13: moves touch no bank; a frame that is taken changes the active one as R4 and R22 say, READ-HITS zeroes
hit counts of the bank it names, and the commands of the edit session write the standby one. -/
theorem banksChangeOnlyByTheirEvents : Obligations.BanksChangeOnlyByTheirEvents := by
  intro c s t hc h
  obtain ⟨u, v, hsu, huv, hvt⟩ := exec_event hc h
  have hbank : ∀ n, u.bank n = s.bank n := fun n => (hsu.holds.bank n).trans (s.elapse_bank _ n)
  have hactive : u.active = s.active := hsu.holds.active
  rcases huv with rfl | hch
  · exact ⟨.inl ((hvt.holds.bank _).trans (hbank _)), .inl ((hvt.holds.bank _).trans (hbank _))⟩
  · have hchange := hch.banks
    rw [hactive, ← hvt.holds.bank, ← hvt.holds.bank, hbank, hbank] at hchange
    obtain ⟨hstandby, hact⟩ := hchange
    refine ⟨hstandby, ?_⟩
    generalize t.bank s.active = after at hact ⊢
    rcases hact with hsame | ⟨hrow, first, count, rfl⟩ | ⟨hrow, path, rfl⟩
    · exact .inl hsame
    · exact .inr (.inl ⟨hrow, Bank.zeroHits_entries .., Bank.zeroHits_profiles .., Bank.zeroHits_at _ first count⟩)
    · exact .inr (.inr ⟨hrow, Bank.taken_profiles .., Bank.taken_at _ path⟩)

end Sys2Proof.Machine
end

section
/-! PROOF. The step, the reset, and the formats of chapter 11 (O1 to O4, O26 to O30). -/

namespace Sys2Proof.Machine

/-! ### The step and the reset -/

/-- Settles O1: the queue is not empty, so the step is the second case of its definition. -/
theorem stepRunsFrontCommand : Obligations.StepRunsFrontCommand := by
  intro c rest s h
  rw [step, h]

/-- Settles O2: the queue is empty, so the step is the first case of its definition. -/
theorem emptyQueuePassesOneMicrosecond : Obligations.EmptyQueuePassesOneMicrosecond := by
  intro s h
  have elapses : step s = .next (s.elapse 1) := by rw [step, h]
  exact elapses

theorem strapAddress_toNat (a : BitVec 5) : (strapAddress a).toNat = if a.toNat = 31 then 254 else 224 + a.toNat := by
  revert a
  decide

theorem strapRate_bitTime (r : BitVec 2) :
    (strapRate r).bitTime = if r.toNat = 0 then 16 else if r.toNat = 1 then 4 else 1 := by
  revert r
  decide

/-- Settles O3: the state that POWER_ON_RESET leaves is written out by the model, value for value. -/
theorem powerOnResetTakesPowerOnValues : Obligations.PowerOnResetTakesPowerOnValues := by
  intro straps s
  refine ⟨{ State.powerOn ⟨straps, s.pins.enrolEn⟩ with pending := s.pending }, rfl, rfl, rfl, rfl, fun p => ?ports,
    fun n => ?banks, rfl, rfl, rfl, rfl, fun i => ?meters, rfl, rfl, rfl, rfl, fun c => ?agent⟩
  case ports =>
    have tables : ∀ i : Fin 255, powerOnTx.seqTable[i] = 0 ∧ powerOnRx.filter[i] = none := fun i =>
      ⟨Vector.getElem_replicate .., Vector.getElem_replicate ..⟩
    have rx : ∀ c : RxCounter, powerOnRx.counters[c.index] = 0 := fun c => Vector.getElem_replicate ..
    have tx : ∀ c : TxCounter, powerOnTx.counters[c.index] = 0 := fun c => Vector.getElem_replicate ..
    cases p <;>
      exact ⟨strapAddress_toNat _, strapRate_bitTime _, rfl, rfl, rfl, rfl, rfl, rfl, rfl, rfl, rfl, rfl, tables,
        rfl, rfl, rfl, rfl, rfl, rx, tx⟩
  case banks =>
    have bank : ∀ i : Fin 128, powerOnBank.hits[i] = 0 ∧ powerOnBank.entries[i] = powerOnEntry := fun i =>
      ⟨Vector.getElem_replicate .., Vector.getElem_replicate ..⟩
    have profiles : ∀ i : Fin 32, powerOnBank.profiles[i] = powerOnProfile := fun i => Vector.getElem_replicate ..
    cases n <;> exact ⟨bank, profiles⟩
  case meters => exact Vector.getElem_replicate ..
  case agent => exact Vector.getElem_replicate ..

/-- Settles O4: queues, positions and tables are empty after reset, and the power-on values of meters and parameters lie
in their ranges. -/
theorem resetIsSound : Obligations.ResetIsSound := by
  refine ⟨?store, ?kinds, State.powerOn_drivers _ [], State.powerOn_positions _ [], ?meters, ?session, ?fence, rfl, ?bound,
    ?managers, powerOn_paramsSound _ _, powerOn_paramsSound _ _⟩
  case store =>
    exact ⟨Nat.zero_le 30, Nat.zero_le 6, Nat.zero_le 4, Nat.zero_le 32, Nat.zero_le 24, Nat.zero_le 24⟩
  case kinds => refine ⟨⟨?_, ?_⟩, ⟨?_, ?_⟩, ?_, ?_⟩ <;> intro x hx <;> cases hx
  case meters =>
    intro m hm
    obtain ⟨-, rfl⟩ := List.mem_replicate.mp (show m ∈ List.replicate 16 powerOnMeter from hm)
    decide
  case session => intro d hd; cases hd
  case fence => intro h; cases h
  case bound => exact Nat.zero_le 4
  case managers => refine ⟨Nat.zero_le _, List.nodup_nil, ?_, ?_⟩ <;> intro x hx <;> cases hx

/-! ### Bytes (11) -/

theorem ofNat8_toNat_lt {n : Nat} (h : n < 256) : (BitVec.ofNat 8 n).toNat = n := by
  rw [BitVec.toNat_ofNat]; omega

theorem bitsOf_ofNat {n : Nat} (h : n < 256) (lo len : Nat) :
    bitsOf (BitVec.ofNat 8 n) lo len = n / 2 ^ lo % 2 ^ len := by
  rw [bitsOf, ofNat8_toNat_lt h]

theorem toNat_append8 {n : Nat} (a : BitVec n) (b : Byte) : (a ++ b).toNat = a.toNat * 256 + b.toNat := by
  rw [BitVec.toNat_append, ← Nat.shiftLeft_add_eq_or_of_lt b.isLt, Nat.shiftLeft_eq]

theorem be32_append (a b c d : Byte) : be32 (a ++ b ++ c ++ d) = [a, b, c, d] := by
  have hn : ((a ++ b ++ c ++ d : BitVec 32)).toNat =
      ((a.toNat * 256 + b.toNat) * 256 + c.toNat) * 256 + d.toNat := by
    rw [toNat_append8 (a ++ b ++ c) d, toNat_append8 (a ++ b) c, toNat_append8 a b]
  have ha := a.isLt
  have hb := b.isLt
  have hc := c.isLt
  have hd := d.isLt
  have byte : ∀ (n : Nat) (x : Byte), n % 256 = x.toNat → BitVec.ofNat 8 n = x := fun n x h =>
    BitVec.eq_of_toNat_eq (by rw [BitVec.toNat_ofNat]; exact h)
  simp only [be32, hn]
  rw [byte _ a (by omega), byte _ b (by omega), byte _ c (by omega), byte _ d (by omega)]

/-- Settles O30: each code and worked encoding is what the model's tables compute. -/
theorem workedEncodings : Obligations.WorkedEncodings := by
  refine ⟨by decide, by decide, fun payload h => ?_, by decide, by decide, by decide, by decide, by decide, by decide,
    by decide, be32_append, fun v => rfl, fun v rest => ⟨rfl, rfl⟩⟩
  simp only [Frame.header, h]
  decide

/-! ### Line frames (R77 to R79, R96, R179) -/

theorem FrameType.ofCode_eq_some {n : Nat} {t : FrameType} : FrameType.ofCode n = some t ↔ n = t.code := by
  constructor
  · unfold FrameType.ofCode
    split <;> intro h <;> cases h <;> rfl
  · rintro rfl
    cases t <;> rfl

/-- R77: a kind byte is determined by the fields that are read from it. -/
theorem kindByte_of_fields {v : Byte} {t : FrameType} (h : FrameType.ofCode (bitsOf v 5 3) = some t) :
    kindByte t (bitsOf v 4 1 == 1) (BitVec.ofNat 4 v.toNat) = v := by
  rw [FrameType.ofCode_eq_some] at h
  apply BitVec.eq_of_toNat_eq
  have hv := v.isLt
  rw [kindByte, ← h, BitVec.toNat_ofNat, BitVec.toNat_ofNat]
  simp only [bitsOf, Nat.reducePow, beq_iff_eq]
  split <;> omega

/-- The class byte holds the class, its zero bits zero. -/
theorem classByte_fields (c : BitVec 3) :
    bitsOf (BitVec.ofNat 8 c.toNat) 3 5 = 0 ∧ BitVec.ofNat 3 (BitVec.ofNat 8 c.toNat).toNat = c := by
  revert c
  decide

theorem classByte_of_fields {v : Byte} (h : bitsOf v 3 5 = 0) : BitVec.ofNat 8 (BitVec.ofNat 3 v.toNat).toNat = v := by
  apply BitVec.eq_of_toNat_eq
  have hv := v.isLt
  simp only [bitsOf, Nat.reducePow] at h
  rw [BitVec.toNat_ofNat, BitVec.toNat_ofNat]
  omega

theorem checkBytes_length (b : List Byte) : (checkBytes b).length = 2 := rfl

theorem Frame.stored_eq (f : Frame) :
    f.stored = f.dst :: f.src :: kindByte f.type f.urgent f.seq :: BitVec.ofNat 8 f.cls.toNat ::
      BitVec.ofNat 8 f.payload.length :: f.payload := rfl

theorem Frame.onLine_length (f : Frame) : f.onLine.length = 7 + f.payload.length := by
  simp only [Frame.onLine, Frame.stored, Frame.header, List.length_append, List.length_cons, List.length_nil,
    checkBytes_length]
  omega

/-- The screening of a whole frame of five header bytes, a payload and two check bytes, at the tests that follow the
shape test (R96). -/
theorem screenBytes_frame (own dst src kind cls len : Byte) (payload check : List Byte) (hc : check.length = 2) :
    screenBytes own (dst :: src :: kind :: cls :: len :: payload ++ check) =
      if checkBytes (dst :: src :: kind :: cls :: len :: payload) ≠ check then .failed .checkError
      else if payload.length ≠ len.toNat ∨ 240 < len.toNat then .failed .lengthError
      else
        match FrameType.ofCode (bitsOf kind 5 3) with
        | none => .failed .formatError
        | some t =>
          if bitsOf cls 3 5 ≠ 0 ∨ (dst = 255 ∧ t ≠ .data) ∨ (t.isReply = true ∧ len.toNat ≠ 0) then
            .failed .formatError
          else if src = 255 ∨ src = own then .failed .addressConflict
          else
            .good
              { dst := dst
                src := src
                type := t
                urgent := bitsOf kind 4 1 == 1
                seq := BitVec.ofNat 4 kind.toNat
                cls := BitVec.ofNat 3 cls.toNat
                payload := payload } := by
  have hbody : ∀ body : List Byte, (body ++ check).length - 2 = body.length := fun body => by
    rw [List.length_append, hc]; omega
  have htake : ∀ body : List Byte, (body ++ check).take body.length = body := fun body => by simp
  have hdrop : ∀ body : List Byte, (body ++ check).drop body.length = check := fun body => by simp
  have hlen : ((dst :: src :: kind :: cls :: len :: payload ++ check).length ≠ Config.frameOverhead + len.toNat) ↔
      payload.length ≠ len.toNat := by
    simp only [List.length_append, List.length_cons, hc, Config.frameOverhead]
    omega
  have bytes : byteAt (dst :: src :: kind :: cls :: len :: payload ++ check) 0 = dst ∧
      byteAt (dst :: src :: kind :: cls :: len :: payload ++ check) 1 = src ∧
      byteAt (dst :: src :: kind :: cls :: len :: payload ++ check) 2 = kind ∧
      byteAt (dst :: src :: kind :: cls :: len :: payload ++ check) 3 = cls ∧
      byteAt (dst :: src :: kind :: cls :: len :: payload ++ check) 4 = len := ⟨rfl, rfl, rfl, rfl, rfl⟩
  obtain ⟨h0, h1, h2, h3, h4⟩ := bytes
  unfold screenBytes
  simp only [hbody, htake, hdrop, h0, h1, h2, h3, h4]
  rw [if_congr (or_congr_left hlen) rfl rfl]
  rfl

/-- A buffer of at least seven bytes is five header bytes, a payload and two check bytes. -/
theorem exists_frame_bytes {b : List Byte} (h : 7 ≤ b.length) :
    ∃ dst src kind cls len payload check, b = dst :: src :: kind :: cls :: len :: payload ++ check ∧
      check.length = 2 := by
  obtain ⟨body, check, rfl, hc⟩ : ∃ body check, b = body ++ check ∧ check.length = 2 :=
    ⟨b.take (b.length - 2), b.drop (b.length - 2), (List.take_append_drop _ _).symm, by rw [List.length_drop]; omega⟩
  rw [List.length_append, hc] at h
  match body, h with
  | dst :: src :: kind :: cls :: len :: payload, _ => exact ⟨dst, src, kind, cls, len, payload, check, rfl, hc⟩

theorem screen_shape {own : Byte} {b : List Byte} (h : 7 ≤ b.length) (h' : b.length ≤ 247) :
    screen own b b.length false = screenBytes own b := by
  rw [screen, if_neg]
  simp only [Config.frameOverhead, Config.bufferBytes, Bool.false_eq_true, or_false, not_or]
  omega

/-- Settles O26: each field of the header is read back from its byte, and no test of the screening fails. -/
theorem sentFramesPassScreening : Obligations.SentFramesPassScreening := by
  intro own f hlen hsrc hown hbroadcast hreply
  have hf := f.onLine_length
  rw [screen_shape (by omega) (by omega), Frame.onLine, Frame.stored_eq,
    screenBytes_frame _ _ _ _ _ _ _ _ (checkBytes_length _)]
  have hl : (BitVec.ofNat 8 f.payload.length).toNat = f.payload.length := ofNat8_toNat_lt (by omega)
  obtain ⟨htype, hurgent, hseq⟩ := kindByte_fields f.type f.urgent f.seq
  obtain ⟨hzero, hcls⟩ := classByte_fields f.cls
  have hempty : f.type.isReply = true → f.payload.length = 0 := by
    intro ht
    rw [List.length_eq_zero_iff]
    refine hreply ?_
    cases hty : f.type <;> rw [hty] at ht <;> simp [FrameType.isReply] at ht ⊢
  rw [if_neg (not_not_intro rfl), hl, if_neg (by omega), htype, hurgent, hseq, hcls, hzero]
  dsimp only
  rw [if_neg, if_neg]
  · rintro (h | h)
    · exact hsrc h
    · exact hown h
  · rintro (h | h | h)
    · exact h rfl
    · exact h.2 (hbroadcast h.1)
    · exact h.2 (hempty h.1)

/-- Settles O27: the bytes of a frame that passes every test are those of its fields, its length and its check. -/
theorem receivedFrameIsKeptByteForByte : Obligations.ReceivedFrameIsKeptByteForByte := by
  intro own b f h
  have hshape : 7 ≤ b.length ∧ b.length ≤ 247 := by
    unfold screen at h
    split at h
    · cases h
    · rename_i hs
      simp only [Config.frameOverhead, Config.bufferBytes, not_or] at hs
      omega
  rw [screen_shape hshape.1 hshape.2] at h
  obtain ⟨dst, src, kind, cls, len, payload, check, rfl, hc⟩ := exists_frame_bytes hshape.1
  rw [screenBytes_frame _ _ _ _ _ _ _ _ hc] at h
  split at h
  · cases h
  rename_i hcheck
  split at h
  · cases h
  rename_i hlength
  split at h
  · cases h
  rename_i t ht
  split at h
  · cases h
  rename_i hformat
  split at h
  · cases h
  cases h
  have hzero : bitsOf cls 3 5 = 0 := by
    by_contra hne
    exact hformat (.inl hne)
  have hlen : BitVec.ofNat 8 payload.length = len := by
    apply BitVec.eq_of_toNat_eq
    have := len.isLt
    rw [BitVec.toNat_ofNat]
    omega
  have hstored : Frame.stored ⟨dst, src, t, bitsOf kind 4 1 == 1, BitVec.ofNat 4 kind.toNat, BitVec.ofNat 3 cls.toNat,
      payload⟩ = dst :: src :: kind :: cls :: len :: payload := by
    simp only [Frame.stored_eq, kindByte_of_fields ht, classByte_of_fields hzero, hlen]
  rw [Frame.onLine, hstored, Decidable.not_not.mp hcheck]

/-! ### Codes of fields, both ways round (11.3) -/

theorem QueueRule.ofCode_eq_some {n : Nat} {q : QueueRule} : QueueRule.ofCode n = some q ↔ n = q.code := by
  constructor
  · unfold QueueRule.ofCode
    split <;> intro h <;> cases h <;> rfl
  · rintro rfl
    cases q <;> rfl

theorem Policy.ofCode_eq_some {n : Nat} {q : Policy} : Policy.ofCode n = some q ↔ n = q.code := by
  constructor
  · unfold Policy.ofCode
    split <;> intro h <;> cases h <;> rfl
  · rintro rfl
    cases q <;> rfl

theorem Disposition.ofCode_eq_some {v : Byte} {d : Disposition} : Disposition.ofCode v = some d ↔ v = d.code := by
  constructor
  · unfold Disposition.ofCode
    intro h
    split at h
    · cases h; assumption
    · split at h
      · cases h; assumption
      · split at h
        · cases h; assumption
        · cases h
  · rintro rfl
    cases d <;> rfl

theorem QueueRule.code_le (q : QueueRule) : q.code ≤ 2 := by cases q <;> decide
theorem Policy.code_le (q : Policy) : q.code ≤ 3 := by cases q <;> decide

/-! ### Rule entries (11.3, R155, R181) -/

/-- A rule entry's 12 bytes with one-shot field 3, which holds no defined value (R181): 24 = 3 * 8. -/
def oneShotThree : List Byte := [24, 1, 0, 0, 0, 0, 255, 0, 255, 0, 0, 0]

/-- What the model decodes them to: the entry whose one-shot is NONE. -/
def oneShotThreeEntry : RuleEntry where
  valid := false
  ingress := .A
  types := ⟨true, false, false⟩
  dst := ⟨0, 0⟩
  src := ⟨0, 0⟩
  classes := 255
  oneShot := .none
  chain := .stop
  profile := 0
  meter := none
  dstRewrite := none
  srcRewrite := .absent

theorem decodeRule_oneShotThree : decodeRule oneShotThree = some oneShotThreeEntry := by decide

/-- Refutes O28: in `OneShot.ofCode` the name `none` of the last case is the constructor `OneShot.none`, not the absent
option, so the undefined one-shot value 3 is accepted as NONE, and byte 0 is given back as 0 where 24 was written. -/
theorem not_ruleEntryEncodesAndDecodes : ¬ Obligations.RuleEntryEncodesAndDecodes := by
  rintro ⟨-, -, given_back⟩
  obtain ⟨firstTen, -, -⟩ := given_back oneShotThree oneShotThreeEntry rfl decodeRule_oneShotThree
  exact absurd firstTen (by decide)

/-! ### Action profiles (11.3, R156, R181) -/

/-- Byte 1 of a profile: egress in bit 4, queue in bits 1 and 0. -/
def profileByte1 (q : Profile) : Nat := (match q.egress with | .other => 0 | .same => 16) + q.queue.code

/-- Byte 2: notify in bit 4, policy in bits 1 and 0. -/
def profileByte2 (q : Profile) : Nat := (if q.notify then 16 else 0) + q.policy.code

/-- Byte 3: the class rewrite, present in bit 7. -/
def profileByte3 (c : Option (BitVec 3)) : Nat := match c with | none => 0 | some c => 128 + c.toNat

theorem encodeProfile_eq (q : Profile) : encodeProfile q =
    [q.disposition.code, BitVec.ofNat 8 (profileByte1 q), BitVec.ofNat 8 (profileByte2 q),
      BitVec.ofNat 8 (profileByte3 q.clsRewrite)] := rfl

theorem profileByte1_fields (q : Profile) :
    profileByte1 q < 32 ∧ profileByte1 q / 4 % 4 = 0 ∧ profileByte1 q % 4 = q.queue.code ∧
      (if profileByte1 q / 16 % 2 = 1 then Egress.same else .other) = q.egress := by
  have hq := q.queue.code_le
  unfold profileByte1
  cases q.egress
  · dsimp only
    exact ⟨by omega, by omega, by omega, if_neg (by omega)⟩
  · dsimp only
    exact ⟨by omega, by omega, by omega, if_pos (by omega)⟩

theorem profileByte2_fields (q : Profile) :
    profileByte2 q < 32 ∧ profileByte2 q / 4 % 4 = 0 ∧ profileByte2 q % 4 = q.policy.code ∧
      (profileByte2 q / 16 % 2 == 1) = q.notify := by
  have hq := q.policy.code_le
  unfold profileByte2
  cases q.notify
  · exact ⟨by simp; omega, by simp; omega, by simp; omega, by simp; omega⟩
  · exact ⟨by simp; omega, by simp; omega, by simp; omega, by simp; omega⟩

theorem profileByte3_fields (c : Option (BitVec 3)) :
    profileByte3 c < 256 ∧ profileByte3 c / 8 % 16 = 0 ∧
      (if profileByte3 c / 128 % 2 = 1 then some (BitVec.ofNat 3 (profileByte3 c)) else none) = c := by
  cases c with
  | none => exact ⟨by decide, by decide, rfl⟩
  | some c => revert c; decide

theorem encodeProfile_toNat (q : Profile) :
    (encodeProfile q).map BitVec.toNat =
      [q.disposition.code.toNat, profileByte1 q, profileByte2 q, profileByte3 q.clsRewrite] := by
  obtain ⟨b1, -⟩ := profileByte1_fields q
  obtain ⟨b2, -⟩ := profileByte2_fields q
  obtain ⟨b3, -⟩ := profileByte3_fields q.clsRewrite
  rw [encodeProfile_eq]
  simp only [List.map_cons, List.map_nil, ofNat8_toNat_lt (show profileByte1 q < 256 by omega),
    ofNat8_toNat_lt (show profileByte2 q < 256 by omega), ofNat8_toNat_lt b3]

theorem decodeProfile_encodeProfile (q : Profile) : decodeProfile (encodeProfile q) = some q := by
  obtain ⟨b1, z1, q1, e1⟩ := profileByte1_fields q
  obtain ⟨b2, z2, p2, n2⟩ := profileByte2_fields q
  obtain ⟨b3, z3, c3⟩ := profileByte3_fields q.clsRewrite
  rw [encodeProfile_eq]
  generalize profileByte1 q = x1 at *
  generalize profileByte2 q = x2 at *
  generalize profileByte3 q.clsRewrite = x3 at *
  have hx1 : x1 < 256 := by omega
  have hx2 : x2 < 256 := by omega
  unfold decodeProfile
  simp only [byteAt, List.getD_cons_zero, List.getD_cons_succ, bitsOf_ofNat hx1, bitsOf_ofNat hx2, bitsOf_ofNat b3,
    ofNat8_toNat_lt b3, Nat.reducePow, Nat.div_one]
  rw [if_neg (by omega), Disposition.ofCode_eq_some.mpr rfl, QueueRule.ofCode_eq_some.mpr q1,
    Policy.ofCode_eq_some.mpr p2]
  simp only [e1, n2, c3]

/-- The four bytes that WRITE-PROFILE accepts, by the profile they name. -/
theorem encodeProfile_of_decodeProfile {b : List Byte} {q : Profile} (hl : b.length = 4) (h : decodeProfile b = some q) :
    (encodeProfile q).take 3 = b.take 3 ∧ (encodeProfile q)[3]? = (if q.clsRewrite = none then some 0 else b[3]?) := by
  match b, hl with
  | [x0, x1, x2, x3], _ =>
  unfold decodeProfile at h
  simp only [byteAt, List.getD_cons_zero, List.getD_cons_succ] at h
  split at h
  · cases h
  rename_i hz
  split at h
  rotate_left
  · cases h
  rename_i d u o hd hu ho
  cases h
  rw [Disposition.ofCode_eq_some] at hd
  rw [QueueRule.ofCode_eq_some] at hu
  rw [Policy.ofCode_eq_some] at ho
  simp only [bitsOf, Nat.reducePow, Nat.div_one, not_or, not_not] at hz hu ho
  obtain ⟨z1, z1', z2, z2', z3⟩ := hz
  have hx1 := x1.isLt
  have hx2 := x2.isLt
  have hx3 := x3.isLt
  have byte : ∀ {n : Nat} {x : Byte}, n = x.toNat → BitVec.ofNat 8 n = x := fun {n x} h => by
    rw [h, BitVec.ofNat_toNat, BitVec.setWidth_eq]
  rw [encodeProfile_eq]
  refine ⟨?three, ?fourth⟩
  case three =>
    simp only [List.take_succ_cons, List.take_zero, hd, profileByte1, profileByte2, bitsOf, Nat.reducePow]
    rw [byte (x := x1), byte (x := x2)]
    · by_cases h : x2.toNat / 16 % 2 = 1 <;> simp [h] <;> omega
    · by_cases h : x1.toNat / 16 % 2 = 1 <;> simp [h] <;> omega
  case fourth =>
    simp only [bitsOf, Nat.reducePow, List.getElem?_cons_succ, List.getElem?_cons_zero]
    by_cases h : x3.toNat / 128 % 2 = 1
    · simp only [h, if_true, reduceCtorEq, if_false, profileByte3]
      rw [byte (x := x3)]
      rw [BitVec.toNat_ofNat]
      omega
    · simp only [h, if_false, if_true, profileByte3]
      rfl

/-- Settles O29: the fields of each byte lie apart, and their codes and the fields determine each other. -/
theorem profileEncodesAndDecodes : Obligations.ProfileEncodesAndDecodes := by
  refine ⟨fun q => ?_, decodeProfile_encodeProfile, fun b q => encodeProfile_of_decodeProfile⟩
  rw [encodeProfile_toNat]
  simp only [List.cons.injEq, and_true]
  refine ⟨?_, ?_, ?_, ?_⟩
  · cases q.disposition <;> rfl
  · unfold profileByte1
    cases q.egress <;> cases q.queue <;> rfl
  · unfold profileByte2
    cases q.policy <;> rfl
  · cases q.clsRewrite <;> rfl

end Sys2Proof.Machine
end

section
/-! PROOF. The agent's execution of a request (R136 to R142): who may ask, replays, and the refusals before step 6
(O17 to O19). -/

namespace Sys2Proof.Machine

/-! ### The rows of the agent -/

/-- R184: the state whose ENROL_EN has the level that a command brings. -/
def State.pinned (s : State) (c : Instr) : State := { s with pins := pinsAfter c s.pins }

/-- Every row of the agent is the execution of its command, with the level of ENROL_EN that the row brings. -/
theorem exec_row {c : Instr} {k : Option Command} (h : rowOf c = some k) (s : State) :
    ∃ six : StepSix, exec c s = .next (((s.pinned c).elapse (dtOf c)).agentRow k six) ∧
      (k = some .identify → six = State.cmdIdentify) := by
  cases c <;> cases h <;> exact ⟨_, rfl, by simp⟩

/-- The request at the head of the agent queue is executed by the row of its command. -/
theorem State.agentRow_head {s : State} {m : MgmtSlot} (hq : s.agentQueue.head? = some m) (six : StepSix) :
    s.agentRow m.command six = s.executeRequest m m.command six := by
  unfold State.agentRow
  split
  · rename_i h
    rw [h] at hq
    cases hq
  · rename_i k _ h
    rw [h] at hq
    cases hq
    exact if_pos rfl

/-- R139, steps 2 to 6 of a fresh request. -/
theorem State.executeRequest_fresh {s : State} {m : MgmtSlot}
    (h : (s.raiseAgent .requestsTaken).replayOf m = none) (k : Option Command) (six : StepSix) :
    s.executeRequest m k six =
      match k with
      | none => (s.raiseAgent .requestsTaken).popRequest.answer m m.malformed [] .none
      | some cmd => (s.raiseAgent .requestsTaken).carryOut m cmd six := by
  cases k <;> simp only [State.executeRequest, h]

/-! ### The right a command needs (R136, R137) -/

theorem State.rightOf_eq_none {s : State} {m : MgmtSlot} : s.rightOf m = none ↔ s.manager m.port m.requester = none :=
  Option.map_eq_none_iff

/-- R137: what a station that is no manager is refused. -/
theorem State.rightRefusal_stranger {s : State} {m : MgmtSlot} (h : s.manager m.port m.requester = none) (k : Command) :
    s.rightRefusal k m =
      if k = .identify ∨ k = .enrol ∧ s.managers = [] ∧ s.pins.enrolEn = true then none else some .notManager := by
  unfold State.rightRefusal
  rw [h]
  cases k <;> simp

/-- R136: what a manager is refused. -/
theorem State.rightRefusal_manager {s : State} {m : MgmtSlot} {r : Right} (h : s.rightOf m = some r) (k : Command) :
    s.rightRefusal k m = if k.needsWrite = true ∧ r = .read then some .noRight else none := by
  obtain ⟨e, he, rfl⟩ := Option.map_eq_some_iff.mp h
  simp only [State.rightRefusal, he]

/-! ### An answer, with any counters of the agent (R141, R142) -/

/-- R138, R141: an execution that only counts and answers. -/
theorem State.answer_counted (s : State) (dt : Nat) (v : Vector Count 11) (m : MgmtSlot) (st : Status)
    (result : List Byte) (t : Trigger) :
    ({ s.elapse dt with agentCounters := v } : State).popRequest.answer m st result t =
      { s.answered dt m m.tag (responseRecord m.tag m.code st result) t with agentCounters := v } := by
  rw [State.answer_eq]
  cases hp : m.port <;> simp [State.popRequest, State.answered, State.modPort, State.elapse, hp]

theorem managersAnswered_stranger {s : State} {m : MgmtSlot} (h : s.manager m.port m.requester = none) (tag : Byte)
    (record : List Byte) : managersAnswered s.managers m tag record = s.managers := by
  unfold managersAnswered
  refine (List.map_congr_left fun e he => ?_).trans (List.map_id _)
  exact if_neg fun hk => State.manager_none h e he hk.2

theorem State.answered_stranger {s : State} {m : MgmtSlot} (h : s.manager m.port m.requester = none) (dt : Nat)
    (tag : Byte) (record : List Byte) (t : Trigger) (v : Vector Count 11) :
    { s.answered dt m tag record t with agentCounters := v } =
      { s.modPort m.port fun x => { x with normal := x.normal ++ [responseSlot m x.inForce.own record t] } with
        clock := s.clock + dt
        agentQueue := s.agentQueue.tail
        agentCounters := v } := by
  rw [State.answered, managersAnswered_stranger h]
  cases m.port <;> rfl

/-- R137, R139: a station that is no manager, unless its ENROL makes it the first one, is only answered. -/
theorem State.execute_stranger {s : State} {m : MgmtSlot} (dt : Nat) {k : Option Command} {six : StepSix}
    (hs : s.manager m.port m.requester = none) (hid : k = some .identify → six = State.cmdIdentify)
    (hen : k = some .enrol → s.managers ≠ [] ∨ s.pins.enrolEn = false) :
    ∃ st result v, (s.elapse dt).executeRequest m k six =
      { s.answered dt m m.tag (responseRecord m.tag m.code st result) .none with agentCounters := v } := by
  have hfresh : ((s.elapse dt).raiseAgent .requestsTaken).replayOf m = none := by
    have : ((s.elapse dt).raiseAgent .requestsTaken).manager m.port m.requester = none := hs
    simp only [State.replayOf, this]
  rw [State.executeRequest_fresh hfresh]
  cases k with
  | none => exact ⟨_, _, _, s.answer_counted dt _ m _ _ _⟩
  | some cmd =>
    dsimp only
    have hr := State.rightRefusal_stranger (s := (s.elapse dt).raiseAgent .requestsTaken) hs cmd
    unfold State.carryOut
    by_cases hcmd : cmd = .identify
    · subst hcmd
      rw [hr, if_pos (.inl rfl), hid rfl]
      dsimp only
      split
      · exact ⟨_, _, _, s.answer_counted dt _ m _ _ _⟩
      · exact ⟨_, _, _, s.answer_counted dt _ m _ _ _⟩
    · rw [hr, if_neg]
      · exact ⟨_, _, _, s.answer_counted dt _ m _ _ _⟩
      · rintro (h | ⟨rfl, hm, hp⟩)
        · exact hcmd h
        · rcases hen rfl with h | h
          · exact h hm
          · exact absurd (hp.symm.trans h) (by decide)

/-- Settles O17: steps 1 to 4 refuse such a request by name, and IDENTIFY only reads; the answer of a station that is
not listed leaves every tag record as it is. -/
theorem nonManagersChangeNothing : Obligations.NonManagersChangeNothing := by
  intro c s m hrow hq hs hen
  obtain ⟨six, hexec, hid⟩ := exec_row hrow s
  obtain ⟨st, result, v, hrun⟩ := State.execute_stranger (s := s.pinned c) (dtOf c) (k := m.command) hs hid hen
  refine ⟨responseRecord m.tag m.code st result, v, ?_⟩
  have hrun' := (State.agentRow_head (s := (s.pinned c).elapse (dtOf c)) hq six).trans hrun
  rw [hexec, hrun', State.answered_stranger (s := s.pinned c) hs]
  cases m.port <;> rfl

/-! ### Replays (R140, R142) -/

theorem State.replayOf_cached {s : State} {m : MgmtSlot} {e : Manager} {record : List Byte}
    (hs : s.manager m.port m.requester = some e) (ht : m.tag ≠ 0) (hl : e.last = some (m.tag, record)) :
    s.replayOf m = some record := by
  simp only [State.replayOf, hs, hl]
  exact if_pos ⟨ht, trivial⟩

/-- R142: a replay clears the pending tag of its requester when it is this tag. -/
theorem State.recordTag_none (s : State) {m : MgmtSlot} (ht : m.tag ≠ 0) :
    s.recordTag m none =
      { s with
        managers := s.managers.map fun x =>
          if x.port = m.port ∧ x.addr = m.requester then
            { x with pendingTag := if x.pendingTag = some m.tag then none else x.pendingTag }
          else x } := by
  rw [State.recordTag, if_neg ht, State.modManager]
  congr 1
  refine List.map_congr_left fun x _ => ?_
  simp only [Manager.is, Bool.and_eq_true, beq_iff_eq]
  rfl

/-- R141, R142: what the answer of a replay does. -/
theorem State.respond_replay (s : State) {m : MgmtSlot} (ht : m.tag ≠ 0) (record : List Byte) :
    s.respond m record .none none =
      { s.modPort m.port fun x => { x with normal := x.normal ++ [responseSlot m x.inForce.own record .none] } with
        managers := s.managers.map fun x =>
          if x.port = m.port ∧ x.addr = m.requester then
            { x with pendingTag := if x.pendingTag = some m.tag then none else x.pendingTag }
          else x } := by
  rw [State.respond, State.recordTag_none _ ht]
  cases hp : m.port <;> simp [State.enqueue, State.modPort, State.response_slot, hp]

/-- Settles O18: step 1 finds the cached record before the command is looked at. -/
theorem replayAnswersFromTheCache : Obligations.ReplayAnswersFromTheCache := by
  intro c s m e tag record hrow hq hs hhead ht hl
  obtain ⟨six, hexec, -⟩ := exec_row hrow s
  obtain ⟨rest, hpayload⟩ : ∃ rest, m.frame.payload = tag :: rest := by
    cases hp : m.frame.payload with
    | nil => rw [hp] at hhead; cases hhead
    | cons a rest =>
      rw [hp] at hhead
      cases hhead
      exact ⟨rest, rfl⟩
  have htag : m.tag = tag := MgmtSlot.tag_eq hpayload
  subst htag
  have hcached : (((s.pinned c).elapse (dtOf c)).raiseAgent .requestsTaken).replayOf m = some record :=
    State.replayOf_cached hs ht hl
  rw [hexec, State.agentRow_head (s := (s.pinned c).elapse (dtOf c)) hq six]
  simp only [State.executeRequest, hcached, State.respond_replay _ ht]
  cases m.port <;> rfl

/-! ### The refusals of steps 2 to 5 (R139, R180) -/

theorem Command.ofCode_none {code : Byte} (h : code = 0 ∨ 20 ≤ code.toNat) : Command.ofCode code = none := by
  unfold Command.ofCode
  split <;> first | rfl | (exfalso; rcases h with rfl | h <;> simp_all)

/-- R136: the commands that a READ manager may ask for. -/
theorem Command.needsWrite_eq_false {k : Command} : k.needsWrite = false ↔ k = .identify ∨
    k ∈ ([.readRule, .readProfile, .readHits, .readMeter, .readPort, .readCounters, .readStore] : List Command) := by
  cases k <;> decide

/-- Step 5: a requester that has the right, with arguments of another length than the command's. -/
theorem State.carryOut_badLength {s : State} {m : MgmtSlot} {k : Command} (six : StepSix)
    (hr : s.rightRefusal k m = none) (hl : m.args.length ≠ k.argBytes) :
    s.carryOut m k six = s.popRequest.answer m .badLength [] .none := by
  rw [State.carryOut, hr]
  exact if_pos hl

theorem State.carryOut_refused {s : State} {m : MgmtSlot} {k : Command} {st : Status} (six : StepSix)
    (hr : s.rightRefusal k m = some st) :
    s.carryOut m k six = (s.countRefusal st).popRequest.answer m st [] .none := by
  rw [State.carryOut, hr]

/-- The refusal of a fresh request that names a command, whatever its row. -/
theorem State.answered_pinned (s : State) (c : Instr) (dt : Nat) (m : MgmtSlot) (tag : Byte) (record : List Byte)
    (t : Trigger) :
    (s.pinned c).answered dt m tag record t = { s.answered dt m tag record t with pins := pinsAfter c s.pins } := by
  unfold State.answered State.pinned
  cases m.port <;> rfl

/-- The row of a fresh request reaches step 4. -/
theorem exec_row_fresh {c : Instr} {cmd : Command} {s : State} {m : MgmtSlot} (hrow : rowOf c = some (some cmd))
    (hq : s.agentQueue.head? = some m) (hcmd : m.command = some cmd) (hf : s.Fresh m m.tag) :
    ∃ six : StepSix, exec c s =
      .next ((((s.pinned c).elapse (dtOf c)).raiseAgent .requestsTaken).carryOut m cmd six) := by
  obtain ⟨six, hexec, -⟩ := exec_row hrow s
  exact ⟨six, hexec.trans (congrArg _ (State.agentRow_fresh (s := s.pinned c) six (dtOf c) hq hcmd hf))⟩

/-- Settles O19: the row of UNKNOWN_COMMAND answers what names no command; every other row checks the right first and
the length after it. -/
theorem refusalsOfTheHeaderAndTheRight : Obligations.RefusalsOfTheHeaderAndTheRight := by
  intro s m
  have unknown : ∀ dt tag code st, s.agentQueue.head? = some m → m.command = none → m.tag = tag → m.code = code →
      m.malformed = st → s.Fresh m tag →
      exec (.unknownCommand dt) s = .next (s.answered dt m tag (refusalRecord tag code st) .none) := by
    rintro dt _ _ _ hq hc rfl rfl rfl hf
    refine congrArg Host.Outcome.next ?_
    rw [State.agentRow_fresh _ dt hq hc hf, responseRecord_refusal]
  refine ⟨fun dt tag hq hf hp => ?headerless, fun dt hq hp => ?empty, fun dt tag code args hh hf hcode => ?unnamed,
    fun c cmd tag code args hh hrow hcmd hf => ?named⟩
  case headerless =>
    exact unknown dt tag 0 .badLength hq (by simp [MgmtSlot.command, hp]) (MgmtSlot.tag_eq hp)
      (by simp [MgmtSlot.code, byteAt, hp]) (by simp [MgmtSlot.malformed, hp]) hf
  case empty =>
    exact unknown dt 0 0 .badLength hq (by simp [MgmtSlot.command, hp])
      (by simp [MgmtSlot.tag, Frame.tag, byteAt, hp]) (by simp [MgmtSlot.code, byteAt, hp])
      (by simp [MgmtSlot.malformed, hp]) (.inl rfl)
  case unnamed =>
    obtain ⟨hq, hp⟩ := hh
    exact unknown dt tag code .unknownCommand hq ((MgmtSlot.command_eq hp).trans (Command.ofCode_none hcode))
      (MgmtSlot.tag_eq hp) (MgmtSlot.code_eq hp) (by simp [MgmtSlot.malformed, hp]) hf
  case named =>
    obtain ⟨hq, hp⟩ := hh
    obtain rfl := MgmtSlot.tag_eq hp
    obtain rfl := MgmtSlot.code_eq hp
    obtain rfl := MgmtSlot.args_eq hp
    obtain ⟨six, hexec⟩ := exec_row_fresh hrow hq hcmd hf
    generalize hu : ((s.pinned c).elapse (dtOf c)).raiseAgent .requestsTaken = u at hexec
    have hmanager : u.manager m.port m.requester = s.manager m.port m.requester := by rw [← hu]; rfl
    have hright : u.rightOf m = s.rightOf m := by rw [← hu]; rfl
    have hmanagers : u.managers = s.managers := by rw [← hu]; rfl
    have hpins : u.pins = pinsAfter c s.pins := by rw [← hu]; rfl
    have answers : ∀ st v, ({ u with agentCounters := v } : State).popRequest.answer m st [] .none =
        { s.answered (dtOf c) m m.tag (refusalRecord m.tag m.code st) .none with
          pins := pinsAfter c s.pins, agentCounters := v } := by
      intro st v
      rw [← responseRecord_refusal]
      have := (s.pinned c).answer_counted (dtOf c) v m st [] .none
      rw [State.answered_pinned] at this
      rw [← hu]
      exact this
    refine ⟨fun hr hid hno => ?stranger, fun hr hid hno => ?reader, fun hmay hlen => ?length⟩
    case stranger =>
      have hrefused : u.rightRefusal cmd m = some .notManager := by
        rw [State.rightRefusal_stranger (hmanager.trans (State.rightOf_eq_none.mp hr)), if_neg]
        rintro (h | h)
        · exact hid h
        · rw [hmanagers, hpins] at h
          exact hno h
      rw [hexec, State.carryOut_refused six hrefused]
      refine congrArg Host.Outcome.next ((answers .notManager _).trans ?_)
      rw [← hu]
      rfl
    case reader =>
      have hrefused : u.rightRefusal cmd m = some .noRight := by
        have hw : cmd.needsWrite = true := by
          rw [← Bool.not_eq_false, Command.needsWrite_eq_false]
          exact not_or.mpr ⟨hid, hno⟩
        rw [State.rightRefusal_manager (hright.trans hr), if_pos ⟨hw, rfl⟩]
      rw [hexec, State.carryOut_refused six hrefused]
      refine congrArg Host.Outcome.next ((answers .noRight _).trans ?_)
      rw [← hu]
      rfl
    case length =>
      have hnone : u.rightRefusal cmd m = none := by
        cases hr : s.rightOf m with
        | none =>
          rw [State.rightRefusal_stranger (hmanager.trans (State.rightOf_eq_none.mp hr)), if_pos]
          rw [hmanagers, hpins]
          simpa [hr] using hmay
        | some r =>
          rw [State.rightRefusal_manager (hright.trans hr), if_neg]
          rintro ⟨hw, rfl⟩
          have hread : cmd.needsWrite = false := Command.needsWrite_eq_false.mpr (by simpa [hr] using hmay)
          exact absurd (hw.symm.trans hread) (by decide)
      have hbytes : m.args.length ≠ cmd.argBytes := by
        intro h
        refine hlen (h.trans ?_)
        cases cmd <;> rfl
      rw [hexec, State.carryOut_badLength six hnone hbytes]
      refine congrArg Host.Outcome.next ((answers .badLength u.agentCounters).trans ?_)
      rw [← hu]
      simp only [State.answered]
      rfl

end Sys2Proof.Machine
end

section
/-! PROOF. The management commands that read, zero counts, or ask for a restart (O50, O51, O53, O60). -/

namespace Sys2Proof.Machine

/-! ### Answers of a changed state -/

/-- R139: a command that leaves `w` at step 6 and answers there. -/
theorem State.agentRow_leaves {s w : State} {m : MgmtSlot} {tag code : Byte} {args : List Byte} {c : Command}
    {six : StepSix} {dt : Nat} {a : Answer} (hh : s.Heads m tag code args) (hc : Command.ofCode code = some c)
    (hf : s.Fresh m tag) (hr : s.rightOf m = some .write ∨ (s.rightOf m ≠ none ∧ c.needsWrite = false))
    (hl : args.length = c.argBytes)
    (hsix : six ((s.elapse dt).raiseAgent .requestsTaken) m args = (w, some a)) :
    (s.elapse dt).agentRow (some c) six = w.popRequest.answer m a.status a.result a.trigger := by
  rw [State.agentRow_ready six dt hh hc hf hr hl, hsix]

/-- An answer neither reads nor moves a bank, once its result is built. -/
theorem State.answer_modBank (s : State) (n : BankName) (f : Bank → Bank) (m : MgmtSlot) (st : Status)
    (result : List Byte) (t : Trigger) :
    (s.modBank n f).popRequest.answer m st result t = (s.popRequest.answer m st result t).modBank n f := by
  rw [State.answer_eq, State.answer_eq]
  cases n <;> cases m.port <;> rfl

/-- An answer reads and moves nothing of a port but its normal queue and its own address in force. -/
theorem State.answer_modPort (s : State) (p : Port) (rx : RxPath → RxPath) (tx : TxPath → TxPath)
    (params : PortState → Params) (staged : PortState → Settings) (m : MgmtSlot) (st : Status) (result : List Byte)
    (t : Trigger)
    (hp : ∀ x l, params { x with normal := l } = params x) (hs : ∀ x l, staged { x with normal := l } = staged x) :
    (s.modPort p fun x =>
        { x with rx := rx x.rx, tx := tx x.tx, params := params x, staged := staged x }).popRequest.answer m st result t =
      (s.popRequest.answer m st result t).modPort p fun x =>
        { x with rx := rx x.rx, tx := tx x.tx, params := params x, staged := staged x } := by
  rw [State.answer_eq, State.answer_eq]
  cases p <;> cases m.port <;> simp only [State.popRequest, State.modPort, hp, hs]

/-! ### Bytes of numbers and selectors (11.3) -/

theorem bank_selector {sel : Byte} (h : sel = 0 ∨ sel = 1) (s : State) :
    ∃ b, BankSelector.ofCode sel = some b ∧ s.selected b = if sel = 0 then s.active else s.active.other := by
  rcases h with rfl | rfl
  · exact ⟨.active, rfl, rfl⟩
  · exact ⟨.standby, rfl, rfl⟩

theorem byte_ne_of_le {v : Byte} {n : Nat} (h : n ≤ v.toNat) {k : Byte} (hk : k.toNat < n) : v ≠ k := by
  rintro rfl
  omega

theorem bankSelector_none {sel : Byte} (h : 2 ≤ sel.toNat) : BankSelector.ofCode sel = none := by
  rw [BankSelector.ofCode, if_neg (byte_ne_of_le h (by decide)), if_neg (byte_ne_of_le h (by decide))]

theorem portOfCode_none {sel : Byte} (h : 2 ≤ sel.toNat) : portOfCode sel = none := by
  rw [portOfCode, if_neg (byte_ne_of_le h (by decide)), if_neg (byte_ne_of_le h (by decide))]

theorem portOfCode_some {sel : Byte} {p : Port} (h : sel = 0 ∧ p = .A ∨ sel = 1 ∧ p = .B) :
    portOfCode sel = some p ∧ portCode p = sel := by
  rcases h with ⟨rfl, rfl⟩ | ⟨rfl, rfl⟩ <;> exact ⟨rfl, rfl⟩

/-- A run that leaves its table is none (R150). -/
theorem runValid_false {first count most last : Nat} (h : count = 0 ∨ most < count ∨ last + 1 < first + count) :
    ¬runValid first count most last = true := by
  rw [runValid_iff]
  omega

/-- R150: the positions of a run, from its first on. -/
theorem runOf_eq_range {α : Type} {xs : List α} {first count : Nat} {g : Nat → α}
    (hg : ∀ k (h : k < xs.length), g k = xs[k]) (hend : first + count ≤ xs.length) :
    runOf xs first count = (List.range count).map fun k => g (first + k) := by
  refine List.ext_getElem (by simp [runOf]; omega) fun i h1 h2 => ?_
  have hi : i < count := by simpa using h2
  simp only [runOf, List.getElem_take, List.getElem_drop, List.getElem_map, List.getElem_range]
  exact (hg _ _).symm

/-! ### IDENTIFY (R151) -/

theorem State.rightCode_eq (s : State) (m : MgmtSlot) : s.rightCode m = ((s.rightOf m).map Right.code).getD 0 := by
  unfold State.rightCode State.rightOf
  cases s.manager m.port m.requester <;> rfl

/-- Settles O50: IDENTIFY needs no right, and its result is the model's `identity`, byte for byte. -/
theorem identifyReports : Obligations.IdentifyReports := by
  intro dt tag m s hh hf
  obtain rfl := MgmtSlot.tag_eq hh.2
  have hallowed : ((s.elapse dt).raiseAgent .requestsTaken).rightRefusal .identify m = none := by
    unfold State.rightRefusal
    split
    · exact if_neg (by simp [Command.needsWrite])
    · rfl
  have hresult : ((s.elapse dt).raiseAgent .requestsTaken).identity m =
      ([12, 55, 1, 156, 1, (s.port .A).inForce.own, (s.port .B).inForce.own, (s.port .A).inForce.rate.code,
          (s.port .B).inForce.rate.code, 32, 128, 32, 16, s.active.code] : List Byte) ++
        be32 s.commitCount ++ sessionBytes s.session ++
        [(if s.fence.isSome then (1 : Byte) else 0), ((s.rightOf m).map Right.code).getD 0] := by
    rw [State.identity, State.rightCode_eq]
    rfl
  refine congrArg Host.Outcome.next ?_
  rw [State.agentRow_fresh State.cmdIdentify dt hh.1 (c := some .identify) (MgmtSlot.command_eq hh.2) hf]
  dsimp only
  rw [State.carryOut_six _ hallowed (by rw [MgmtSlot.args_eq hh.2]; rfl)]
  simp only [State.cmdIdentify, Answer.okWith, State.answer_popped, MgmtSlot.code_eq hh.2, responseRecord_ok, hresult]
  cases s.session <;> rfl

/-! ### READ-RULE, READ-PROFILE, READ-PORT and READ-STORE (R159, R160, R166, R168) -/

theorem Bank.ruleRecords_run (b : Bank) {first count : Nat} (h : first + count ≤ 128) :
    runOf b.ruleRecords first count = (List.range count).map fun k =>
      encodeRule ((b.entries[first + k]?).getD powerOnEntry) ++ be32 ((b.hits[first + k]?).getD 0) := by
  refine runOf_eq_range (g := fun k => encodeRule ((b.entries[k]?).getD powerOnEntry) ++ be32 ((b.hits[k]?).getD 0))
    (fun k hk => ?_) (by simpa [Bank.ruleRecords] using h)
  have hk' : k < 128 := by simpa [Bank.ruleRecords] using hk
  simp [Bank.ruleRecords, hk']

theorem Bank.profiles_run (b : Bank) {first count : Nat} (h : first + count ≤ 32) :
    runOf (b.profiles.toList.map encodeProfile) first count = (List.range count).map fun k =>
      encodeProfile ((b.profiles[first + k]?).getD powerOnProfile) := by
  refine runOf_eq_range (g := fun k => encodeProfile ((b.profiles[k]?).getD powerOnProfile)) (fun k hk => ?_)
    (by simpa using h)
  have hk' : k < 32 := by simpa using hk
  simp [hk']

theorem Bank.hits_run (b : Bank) {first count : Nat} (h : first + count ≤ 128) :
    runOf (b.hits.toList.map be32) first count = (List.range count).map fun k => be32 ((b.hits[first + k]?).getD 0) := by
  refine runOf_eq_range (g := fun k => be32 ((b.hits[k]?).getD 0)) (fun k hk => ?_) (by simpa using h)
  have hk' : k < 128 := by simpa using hk
  simp [hk']

theorem toList_eight (v : Vector Byte 8) : v.toList = [v[0], v[1], v[2], v[3], v[4], v[5], v[6], v[7]] := by
  refine List.ext_getElem (by simp) fun i h1 h2 => ?_
  have hi : i < 8 := by simpa using h1
  rcases i with _ | _ | _ | _ | _ | _ | _ | _ | i <;> first | rfl | omega

/-- Settles O51: step 6 of the four reads leaves the state as it stands; a run lists the table from its first position
on. -/
theorem readsReturnWhatStands : Obligations.ReadsReturnWhatStands := by
  intro dt tag m s hf hr
  have reads : ∀ {c : Command}, c.needsWrite = false →
      s.rightOf m = some .write ∨ (s.rightOf m ≠ none ∧ c.needsWrite = false) := fun h => .inr ⟨hr, h⟩
  refine ⟨fun sel first count hsel => ?tables, fun sel first count hsel => ?undefined, fun sel p hsel hh => ?port,
    fun hh => ?store⟩
  case tables =>
    obtain ⟨b, hb, hn⟩ := bank_selector hsel ((s.elapse dt).raiseAgent .requestsTaken)
    have hbank : ((s.elapse dt).raiseAgent .requestsTaken).bank
        (((s.elapse dt).raiseAgent .requestsTaken).selected b) = s.bank (if sel = 0 then s.active else s.active.other) := by
      rw [hn, State.raiseAgent_bank, State.elapse_bank]
      rfl
    refine ⟨fun hh => ⟨fun h1 h8 hend => ?_, fun hbad => ?_⟩, fun hh => ⟨fun h1 h16 hend => ?_, fun hbad => ?_⟩⟩
    · have hvalid : runValid first.toNat count.toNat 8 127 = true := (runValid_iff ..).mpr ⟨h1, h8, hend⟩
      refine congrArg Host.Outcome.next (State.agentRow_answers (a := .okWith _) hh rfl hf (reads rfl) rfl ?_)
      simp only [State.cmdReadRule, byteAt, List.getD_cons_zero, List.getD_cons_succ, hb, hvalid, if_true]
      rw [hbank, hn, Bank.ruleRecords_run _ hend]
      rfl
    · refine congrArg Host.Outcome.next (State.agentRow_refused hh rfl hf (reads rfl) rfl fun u => ?_)
      have hbad' : ¬runValid first.toNat count.toNat 8 127 = true :=
        runValid_false (hbad.imp_left fun h => by rw [h]; rfl)
      simp only [State.cmdReadRule, byteAt, List.getD_cons_zero, List.getD_cons_succ, hb, hbad', Bool.false_eq_true,
        if_false]
    · have hvalid : runValid first.toNat count.toNat 16 31 = true := (runValid_iff ..).mpr ⟨h1, h16, hend⟩
      refine congrArg Host.Outcome.next (State.agentRow_answers (a := .okWith _) hh rfl hf (reads rfl) rfl ?_)
      simp only [State.cmdReadProfile, byteAt, List.getD_cons_zero, List.getD_cons_succ, hb, hvalid, if_true]
      rw [hbank, hn, Bank.profiles_run _ hend]
      rfl
    · refine congrArg Host.Outcome.next (State.agentRow_refused hh rfl hf (reads rfl) rfl fun u => ?_)
      have hbad' : ¬runValid first.toNat count.toNat 16 31 = true :=
        runValid_false (hbad.imp_left fun h => by rw [h]; rfl)
      simp only [State.cmdReadProfile, byteAt, List.getD_cons_zero, List.getD_cons_succ, hb, hbad', Bool.false_eq_true,
        if_false]
  case undefined =>
    have hb := bankSelector_none hsel
    have hp := portOfCode_none hsel
    refine ⟨fun hh => ?_, fun hh => ?_, fun hh => ?_⟩
    · exact congrArg Host.Outcome.next (State.agentRow_refused hh rfl hf (reads rfl) rfl fun u => by
        simp only [State.cmdReadRule, byteAt, List.getD_cons_zero, hb])
    · exact congrArg Host.Outcome.next (State.agentRow_refused hh rfl hf (reads rfl) rfl fun u => by
        simp only [State.cmdReadProfile, byteAt, List.getD_cons_zero, hb])
    · exact congrArg Host.Outcome.next (State.agentRow_refused hh rfl hf (reads rfl) rfl fun u => by
        simp only [State.cmdReadPort, byteAt, List.getD_cons_zero, hp])
  case port =>
    obtain ⟨hp, rfl⟩ := portOfCode_some hsel
    refine congrArg Host.Outcome.next (State.agentRow_answers (a := .okWith _) hh rfl hf (reads rfl) rfl ?_)
    simp only [State.cmdReadPort, byteAt, List.getD_cons_zero, hp, State.portBytes, encodeParams, toList_eight,
      State.raiseAgent_port, State.elapse_port]
    rfl
  case store =>
    refine congrArg Host.Outcome.next (State.agentRow_answers (a := .okWith _) hh rfl hf (reads rfl) rfl ?_)
    rfl

/-! ### READ-HITS and READ-COUNTERS (R161, R167, R173) -/

theorem flag_selector (zero : Bool) : flagOfCode (if zero then 1 else 0) = some zero := by cases zero <;> rfl

theorem flagOfCode_none {z : Byte} (h : 2 ≤ z.toNat) : flagOfCode z = none := by
  rw [flagOfCode, if_neg (byte_ne_of_le h (by decide)), if_neg (byte_ne_of_le h (by decide))]

theorem groupOfCode_none {g : Byte} (h : 5 ≤ g.toNat) : Group.ofCode g = none := by
  rw [Group.ofCode, if_neg (byte_ne_of_le h (by decide)), if_neg (byte_ne_of_le h (by decide)),
    if_neg (byte_ne_of_le h (by decide)), if_neg (byte_ne_of_le h (by decide)), if_neg (byte_ne_of_le h (by decide))]

theorem State.cmdReadHits_undefined (s : State) (m : MgmtSlot) {sel first count z : Byte}
    (h : 2 ≤ sel.toNat ∨ 2 ≤ z.toNat) :
    s.cmdReadHits m [sel, first, count, z] = (s, some (.refuse .badArgument)) := by
  unfold State.cmdReadHits
  split
  · rename_i b zero hb hz
    rcases h with h | h
    · cases hb.symm.trans (bankSelector_none h)
    · cases hz.symm.trans (flagOfCode_none h)
  · rfl

theorem State.cmdReadCounters_undefined (s : State) (m : MgmtSlot) {g z : Byte} (h : 5 ≤ g.toNat ∨ 2 ≤ z.toNat) :
    s.cmdReadCounters m [g, z] = (s, some (.refuse .badArgument)) := by
  unfold State.cmdReadCounters
  split
  · rename_i k zero hk hz
    rcases h with h | h
    · cases hk.symm.trans (groupOfCode_none h)
    · cases hz.symm.trans (flagOfCode_none h)
  · rfl

/-- Hit counts that are read, set to 0 when asked, are those of the bank's positions in the run. -/
theorem Bank.zeroHits_if (b : Bank) (zero : Bool) (first count : Nat) :
    { b with hits := Vector.ofFn fun (i : Fin 128) =>
        if zero = true ∧ first ≤ i.val ∧ i.val < first + count then 0 else b.hits[i] } =
      if zero then b.zeroHits first count else b := by
  cases zero with
  | false =>
    have hits : (Vector.ofFn fun (i : Fin 128) =>
        if false = true ∧ first ≤ i.val ∧ i.val < first + count then 0 else b.hits[i]) = b.hits := by
      refine Vector.ext fun i hi => ?_
      simp
    rw [hits]
    rfl
  | true => simp only [true_and, if_true, Bank.zeroHits]

theorem State.modBank_id (s : State) (n : BankName) : (s.modBank n fun b => b) = s := by cases n <;> rfl
theorem State.modPort_id (s : State) (p : Port) : (s.modPort p fun x => x) = s := by cases p <;> rfl

/-- READ-HITS at step 6, its arguments decoded and its run in the table. -/
theorem State.cmdReadHits_run {s : State} {m : MgmtSlot} {sel first count z : Byte} {b : BankSelector} {zero : Bool}
    (hb : BankSelector.ofCode sel = some b) (hz : flagOfCode z = some zero)
    (h1 : 1 ≤ count.toNat) (h48 : count.toNat ≤ 48) (hend : first.toNat + count.toNat ≤ 128) :
    s.cmdReadHits m [sel, first, count, z] =
      (if zero then s.modBank (s.selected b) (Bank.zeroHits first.toNat count.toNat) else s,
        some (.okWith ((s.selected b).code :: ((List.range count.toNat).map fun k =>
          be32 (((s.bank (s.selected b)).hits[first.toNat + k]?).getD 0)).flatten))) := by
  have hvalid : runValid first.toNat count.toNat 48 127 = true := (runValid_iff ..).mpr ⟨h1, h48, hend⟩
  simp only [State.cmdReadHits, byteAt, List.getD_cons_zero, List.getD_cons_succ, hb, hz, hvalid, if_true]
  rw [Bank.hits_run _ hend]

/-- READ-COUNTERS at step 6, its arguments decoded. -/
theorem State.cmdReadCounters_group {s : State} {m : MgmtSlot} {g z : Byte} {k : Group} {zero : Bool}
    (hk : Group.ofCode g = some k) (hz : flagOfCode z = some zero) :
    s.cmdReadCounters m [g, z] =
      (if zero then s.zeroGroup k else s, some (.okWith (g :: ((s.groupCounters k).map be32).flatten))) := by
  simp only [State.cmdReadCounters, byteAt, List.getD_cons_zero, List.getD_cons_succ, hk, hz]

theorem State.answer_zeroRx (s : State) (p : Port) (zero : Bool) (m : MgmtSlot) (st : Status) (result : List Byte)
    (t : Trigger) :
    (if zero then s.zeroGroup (.rx p) else s).popRequest.answer m st result t =
      (s.popRequest.answer m st result t).modPort p fun x =>
        if zero then { x with rx := { x.rx with counters := Vector.replicate 18 0 } } else x := by
  cases zero with
  | false => exact (State.modPort_id ..).symm
  | true =>
    exact s.answer_modPort p (fun x => { x with counters := Vector.replicate 18 0 }) id PortState.params PortState.staged
      m st result t (fun _ _ => rfl) fun _ _ => rfl

theorem State.answer_zeroTx (s : State) (p : Port) (zero : Bool) (m : MgmtSlot) (st : Status) (result : List Byte)
    (t : Trigger) :
    (if zero then s.zeroGroup (.tx p) else s).popRequest.answer m st result t =
      (s.popRequest.answer m st result t).modPort p fun x =>
        if zero then { x with tx := { x.tx with counters := Vector.replicate 17 0 } } else x := by
  cases zero with
  | false => exact (State.modPort_id ..).symm
  | true =>
    exact s.answer_modPort p id (fun x => { x with counters := Vector.replicate 17 0 }) PortState.params PortState.staged
      m st result t (fun _ _ => rfl) fun _ _ => rfl

/-- Settles O53: the counts are read off before they are zeroed, and the answer moves neither. -/
theorem countsAreReadAndZeroed : Obligations.CountsAreReadAndZeroed := by
  intro dt tag m s zero hf hr
  have reads : ∀ {c : Command}, c.needsWrite = false →
      s.rightOf m = some .write ∨ (s.rightOf m ≠ none ∧ c.needsWrite = false) := fun h => .inr ⟨hr, h⟩
  have hz := flag_selector zero
  have ports : ∀ p : Port, ((s.elapse dt).raiseAgent .requestsTaken).port p = s.port p := fun p =>
    (State.raiseAgent_port ..).trans (State.elapse_port ..)
  refine ⟨fun sel first count z hh hbad => ?hitsArgument, fun sel first count hsel hh hbad => ?hitsRun,
    fun g z hh hbad => ?group, fun sel first count hsel hh h1 h48 hend => ?hits, fun g p hg hh => ?rx,
    fun g p hg hh => ?tx, fun hh => ?agent⟩
  case hitsArgument =>
    exact congrArg Host.Outcome.next (State.agentRow_refused hh rfl hf (reads rfl) rfl fun u =>
      u.cmdReadHits_undefined m hbad)
  case hitsRun =>
    obtain ⟨b, hb, -⟩ := bank_selector hsel s
    have hbad' : ¬runValid first.toNat count.toNat 48 127 = true :=
      runValid_false (hbad.imp_left fun h => by rw [h]; rfl)
    exact congrArg Host.Outcome.next (State.agentRow_refused hh rfl hf (reads rfl) rfl fun u => by
      simp only [State.cmdReadHits, byteAt, List.getD_cons_zero, List.getD_cons_succ, hb, hz, hbad', Bool.false_eq_true,
        if_false])
  case group =>
    exact congrArg Host.Outcome.next (State.agentRow_refused hh rfl hf (reads rfl) rfl fun u =>
      u.cmdReadCounters_undefined m hbad)
  case hits =>
    obtain ⟨b, hb, hn⟩ := bank_selector hsel ((s.elapse dt).raiseAgent .requestsTaken)
    refine congrArg Host.Outcome.next ?_
    rw [State.agentRow_leaves hh rfl hf (reads rfl) rfl (State.cmdReadHits_run hb hz h1 h48 hend), hn]
    have hbank : ((s.elapse dt).raiseAgent .requestsTaken).bank (if sel = 0 then s.active else s.active.other) =
        s.bank (if sel = 0 then s.active else s.active.other) := (State.raiseAgent_bank ..).trans (State.elapse_bank ..)
    simp only [Answer.okWith, Bank.zeroHits_if, State.raiseAgent_active, State.elapse_active, hbank]
    cases zero
    · simp only [Bool.false_eq_true, if_false, State.answer_popped, State.modBank_id, MgmtSlot.tag_eq hh.2,
        MgmtSlot.code_eq hh.2, responseRecord_ok]
    · simp only [if_true, State.answer_modBank, State.answer_popped, MgmtSlot.tag_eq hh.2, MgmtSlot.code_eq hh.2,
        responseRecord_ok]
  case rx =>
    have hk : Group.ofCode g = some (.rx p) := by rcases hg with ⟨rfl, rfl⟩ | ⟨rfl, rfl⟩ <;> rfl
    refine congrArg Host.Outcome.next ?_
    rw [State.agentRow_leaves hh rfl hf (reads rfl) rfl (State.cmdReadCounters_group hk hz)]
    simp only [Answer.okWith, State.answer_zeroRx, State.answer_popped, MgmtSlot.tag_eq hh.2, MgmtSlot.code_eq hh.2,
      State.groupCounters, ports]
    rfl
  case tx =>
    have hk : Group.ofCode g = some (.tx p) := by rcases hg with ⟨rfl, rfl⟩ | ⟨rfl, rfl⟩ <;> rfl
    refine congrArg Host.Outcome.next ?_
    rw [State.agentRow_leaves hh rfl hf (reads rfl) rfl (State.cmdReadCounters_group hk hz)]
    simp only [Answer.okWith, State.answer_zeroTx, State.answer_popped, MgmtSlot.tag_eq hh.2, MgmtSlot.code_eq hh.2,
      State.groupCounters, ports]
    rfl
  case agent =>
    have hstate : (if zero then ((s.elapse dt).raiseAgent .requestsTaken).zeroGroup .agent
          else (s.elapse dt).raiseAgent .requestsTaken) =
        { s.elapse dt with
          agentCounters := if zero then Vector.replicate 11 0
            else raiseAll AgentCounter.index [.requestsTaken] s.agentCounters } := by cases zero <;> rfl
    refine congrArg Host.Outcome.next ?_
    rw [State.agentRow_leaves hh rfl hf (reads rfl) rfl (State.cmdReadCounters_group (k := .agent) rfl hz)]
    simp only [hstate, Answer.okWith, State.answer_counted, MgmtSlot.tag_eq hh.2, MgmtSlot.code_eq hh.2]
    rfl

/-! ### RESTART-PORT and RESTART (R144, R169, R170) -/

theorem State.answer_raiseMark (s : State) (m : MgmtSlot) (st : Status) (result : List Byte) (t : Trigger) :
    s.raiseMark.popRequest.answer m st result t =
      { s.popRequest.answer m st result t with restartPending := s.restartPending + 1 } := by
  rw [State.answer_eq, State.answer_eq]
  cases m.port <;> rfl

/-- Settles O60: step 6 raises the mark and hands the trigger to the response, which the answer builds. -/
theorem restartCommandsSetTheirTrigger : Obligations.RestartCommandsSetTheirTrigger := by
  intro dt tag m s hf hr
  refine ⟨fun pc p hpc hh => ?_, fun pc hh hpc => ?_, fun hh => ?_⟩
  · obtain ⟨hp, hcode⟩ := portOfCode_some hpc
    have hsix : ((s.elapse dt).raiseAgent .requestsTaken).cmdRestartPort m [pc] =
        (((s.elapse dt).raiseAgent .requestsTaken).raiseMark, some ⟨.ok, [pc], .restartPort p⟩) := by
      simp only [State.cmdRestartPort, byteAt, List.getD_cons_zero, hp, hcode]
    refine congrArg Host.Outcome.next ?_
    rw [State.agentRow_leaves hh rfl hf (.inl hr) rfl hsix]
    simp only [State.answer_raiseMark, State.answer_popped, MgmtSlot.tag_eq hh.2, MgmtSlot.code_eq hh.2]
    rfl
  · exact congrArg Host.Outcome.next (State.agentRow_refused hh rfl hf (.inl hr) rfl fun u => by
      simp only [State.cmdRestartPort, byteAt, List.getD_cons_zero, portOfCode_none hpc])
  · refine congrArg Host.Outcome.next ?_
    rw [State.agentRow_leaves (six := State.cmdRestart) hh rfl hf (.inl hr) rfl rfl]
    simp only [State.answer_raiseMark, State.answer_popped, MgmtSlot.tag_eq hh.2, MgmtSlot.code_eq hh.2]
    rfl

end Sys2Proof.Machine
end

section
/-! PROOF. The management commands that write: the edit session, COMMIT, meters and ports (O55 to O57, O59). -/

namespace Sys2Proof.Machine

/-! ### OPEN-EDIT (R41, R42, R154) -/

/-- R42: what a start mode makes of the standby bank. -/
def startBank (mode : Byte) (live b : Bank) : Bank :=
  if mode = 0 then b
  else if mode = 1 then { entries := live.entries, profiles := live.profiles, hits := Vector.replicate 128 0 }
  else
    { entries := Vector.replicate 128 powerOnEntry, profiles := Vector.replicate 32 powerOnProfile,
      hits := Vector.replicate 128 0 }

theorem startMode_some {mode : Byte} (h : mode.toNat ≤ 2) :
    ∃ k, StartMode.ofCode mode = some k ∧ k.apply = startBank mode := by
  have hmode : mode = 0 ∨ mode = 1 ∨ mode = 2 := by bv_omega
  rcases hmode with rfl | rfl | rfl
  · exact ⟨.keep, rfl, rfl⟩
  · exact ⟨.copy, rfl, rfl⟩
  · exact ⟨.empty, rfl, rfl⟩

theorem startMode_none {mode : Byte} (h : 2 < mode.toNat) : StartMode.ofCode mode = none := by
  rw [StartMode.ofCode, if_neg (byte_ne_of_le h (by decide)), if_neg (byte_ne_of_le h (by decide)),
    if_neg (byte_ne_of_le h (by decide))]

/-- OPEN-EDIT at step 6, its arguments valid and no other owner's session in its way. -/
theorem State.cmdOpenEdit_opens {s : State} {m : MgmtSlot} {lease mode : Byte} {k : StartMode}
    (hl : lease.toNat ≤ 120) (hk : StartMode.ofCode mode = some k)
    (hs : s.session = none ∨ s.ownsSession m.port m.requester = true) :
    s.cmdOpenEdit m [lease, mode] =
      (s.openSession m (leaseOf lease) k, some (.okWith [s.standby.code, BitVec.ofNat 8 (leaseOf lease)])) := by
  simp only [State.cmdOpenEdit, byteAt, List.getD_cons_zero, List.getD_cons_succ, hk, if_neg (Nat.not_lt.mpr hl)]
  rcases hs with hs | hs
  · rw [hs]
  · cases s.session with
    | none => rfl
    | some d => exact if_pos hs

theorem State.cmdOpenEdit_held {s : State} {m : MgmtSlot} {lease mode : Byte} {k : StartMode} {d : Session}
    (hl : lease.toNat ≤ 120) (hk : StartMode.ofCode mode = some k) (hd : s.session = some d)
    (hs : s.ownsSession m.port m.requester = false) :
    s.cmdOpenEdit m [lease, mode] = (s, some ⟨.sessionHeld, [portCode d.port, d.addr], .none⟩) := by
  simp only [State.cmdOpenEdit, byteAt, List.getD_cons_zero, List.getD_cons_succ, hk, if_neg (Nat.not_lt.mpr hl), hd,
    hs, Bool.false_eq_true, if_false]

theorem State.cmdOpenEdit_bad (s : State) (m : MgmtSlot) {lease mode : Byte} (h : 120 < lease.toNat ∨ 2 < mode.toNat) :
    s.cmdOpenEdit m [lease, mode] = (s, some (.refuse .badArgument)) := by
  simp only [State.cmdOpenEdit, byteAt, List.getD_cons_zero, List.getD_cons_succ]
  cases hk : StartMode.ofCode mode with
  | none => rfl
  | some k =>
    rcases h with h | h
    · exact if_pos h
    · cases hk.symm.trans (startMode_none h)

/-- Settles O55: step 6 checks the arguments, then the owner, and the answer leaves session and bank as it set them. -/
theorem openEditOpensTheSession : Obligations.OpenEditOpensTheSession := by
  intro dt tag lease mode m s hh hf hr
  refine ⟨fun hbad => ?bad, fun hl hm hs => ?opens, fun d hl hm hd hs => ?held⟩
  case bad =>
    exact congrArg Host.Outcome.next (State.agentRow_refused hh rfl hf (.inl hr) rfl fun u => u.cmdOpenEdit_bad m hbad)
  case opens =>
    obtain ⟨k, hk, happly⟩ := startMode_some hm
    have hsix := State.cmdOpenEdit_opens (s := (s.elapse dt).raiseAgent .requestsTaken) hl hk hs
    refine congrArg Host.Outcome.next ?_
    rw [State.agentRow_leaves hh rfl hf (.inl hr) rfl hsix, State.openSession, State.answer_modBank, State.answer_session,
      State.answer_popped, happly, MgmtSlot.tag_eq hh.2, MgmtSlot.code_eq hh.2]
    have hlive : ((s.elapse dt).raiseAgent .requestsTaken).activeBank = s.activeBank := by
      unfold State.activeBank
      rw [State.raiseAgent_bank, State.elapse_bank]
      rfl
    rw [hlive]
    rfl
  case held =>
    obtain ⟨k, hk, -⟩ := startMode_some hm
    exact congrArg Host.Outcome.next (State.agentRow_answers hh rfl hf (.inl hr) rfl
      (State.cmdOpenEdit_held (s := (s.elapse dt).raiseAgent .requestsTaken) hl hk hd hs))

/-! ### WRITE-RULE and WRITE-PROFILE (R43, R45, R155, R156) -/

theorem State.cmdWriteRule_owner {s : State} {m : MgmtSlot} (hs : s.ownsSession m.port m.requester = true) (idx : Byte)
    (bytes : List Byte) :
    (∀ (h : idx.toNat < 128) (e : RuleEntry), decodeRule bytes = some e → s.cmdWriteRule m (idx :: bytes) =
        (s.refreshLease.modBank s.standby (Bank.writeRule ⟨idx.toNat, h⟩ e), some (.okWith []))) ∧
      (128 ≤ idx.toNat → s.cmdWriteRule m (idx :: bytes) = (s.refreshLease, some (.refuse .badIndex))) ∧
      (idx.toNat < 128 → decodeRule bytes = none →
        s.cmdWriteRule m (idx :: bytes) = (s.refreshLease, some (.refuse .badArgument))) := by
  simp only [State.cmdWriteRule, byteAt, List.getD_cons_zero, List.drop_succ_cons, List.drop_zero, hs, if_true]
  refine ⟨fun h e he => ?_, fun h => dif_neg (Nat.not_lt.mpr h), fun h hn => ?_⟩
  · rw [dif_pos h, he]
  · rw [dif_pos h, hn]

theorem State.cmdWriteProfile_owner {s : State} {m : MgmtSlot} (hs : s.ownsSession m.port m.requester = true)
    (idx : Byte) (bytes : List Byte) :
    (∀ (h : idx.toNat < 32) (q : Profile), decodeProfile bytes = some q → s.cmdWriteProfile m (idx :: bytes) =
        (s.refreshLease.modBank s.standby (Bank.writeProfile ⟨idx.toNat, h⟩ q), some (.okWith []))) ∧
      (32 ≤ idx.toNat → s.cmdWriteProfile m (idx :: bytes) = (s.refreshLease, some (.refuse .badIndex))) ∧
      (idx.toNat < 32 → decodeProfile bytes = none →
        s.cmdWriteProfile m (idx :: bytes) = (s.refreshLease, some (.refuse .badArgument))) := by
  simp only [State.cmdWriteProfile, byteAt, List.getD_cons_zero, List.drop_succ_cons, List.drop_zero, hs, if_true]
  refine ⟨fun h e he => ?_, fun h => dif_neg (Nat.not_lt.mpr h), fun h hn => ?_⟩
  · rw [dif_pos h, he]
  · rw [dif_pos h, hn]

/-- A refusal to the owner of the session refreshes its lease. -/
theorem State.answer_refreshed (s : State) (dt : Nat) (m : MgmtSlot) (st : Status) (result : List Byte) (t : Trigger) :
    ((s.elapse dt).raiseAgent .requestsTaken).refreshLease.popRequest.answer m st result t =
      { s.answered dt m m.tag (responseRecord m.tag m.code st result) t with
        session := s.session.map fun d => { d with deadline := (s.clock + dt) / 1000 + d.leaseSecs * 1000 } } := by
  rw [State.refreshLease, State.answer_session, State.answer_popped]
  rfl

/-- Settles O56: the owner's lease is refreshed before index and fields are looked at; what is written is one entry or
one profile of the standby bank. -/
theorem ownerWritesTheStandbyBank : Obligations.OwnerWritesTheStandbyBank := by
  intro dt tag idx bytes m s hf hr
  refine ⟨fun hh hl => ⟨fun hs => ?rule, fun hs => ?ruleOther⟩, fun hh hl => ⟨fun hs => ?profile, fun hs => ?profileOther⟩⟩
  case rule =>
    obtain ⟨hwrite, hindex, hfield⟩ :=
      State.cmdWriteRule_owner (s := (s.elapse dt).raiseAgent .requestsTaken) hs idx bytes
    have run : ∀ {w : State} {a : Answer},
        ((s.elapse dt).raiseAgent .requestsTaken).cmdWriteRule m (idx :: bytes) = (w, some a) →
        exec (.writeRule dt) s = .next (w.popRequest.answer m a.status a.result a.trigger) := fun h =>
      congrArg Host.Outcome.next (State.agentRow_leaves hh rfl hf (.inl hr) (congrArg Nat.succ hl) h)
    refine ⟨fun h e he => (run (hwrite h e he)).trans ?_, fun h => (run (hindex h)).trans ?_,
      fun h hn => (run (hfield h hn)).trans ?_⟩ <;> refine congrArg Host.Outcome.next ?_
    · rw [State.answer_modBank, State.answer_refreshed, MgmtSlot.tag_eq hh.2, MgmtSlot.code_eq hh.2]
      rfl
    · rw [State.answer_refreshed, MgmtSlot.tag_eq hh.2, MgmtSlot.code_eq hh.2]
      rfl
    · rw [State.answer_refreshed, MgmtSlot.tag_eq hh.2, MgmtSlot.code_eq hh.2]
      rfl
  case profile =>
    obtain ⟨hwrite, hindex, hfield⟩ :=
      State.cmdWriteProfile_owner (s := (s.elapse dt).raiseAgent .requestsTaken) hs idx bytes
    have run : ∀ {w : State} {a : Answer},
        ((s.elapse dt).raiseAgent .requestsTaken).cmdWriteProfile m (idx :: bytes) = (w, some a) →
        exec (.writeProfile dt) s = .next (w.popRequest.answer m a.status a.result a.trigger) := fun h =>
      congrArg Host.Outcome.next (State.agentRow_leaves hh rfl hf (.inl hr) (congrArg Nat.succ hl) h)
    refine ⟨fun h e he => (run (hwrite h e he)).trans ?_, fun h => (run (hindex h)).trans ?_,
      fun h hn => (run (hfield h hn)).trans ?_⟩ <;> refine congrArg Host.Outcome.next ?_
    · rw [State.answer_modBank, State.answer_refreshed, MgmtSlot.tag_eq hh.2, MgmtSlot.code_eq hh.2]
      rfl
    · rw [State.answer_refreshed, MgmtSlot.tag_eq hh.2, MgmtSlot.code_eq hh.2]
      rfl
    · rw [State.answer_refreshed, MgmtSlot.tag_eq hh.2, MgmtSlot.code_eq hh.2]
      rfl
  case ruleOther =>
    have hs' : ((s.elapse dt).raiseAgent .requestsTaken).ownsSession m.port m.requester = false := hs
    exact congrArg Host.Outcome.next (State.agentRow_answers (a := .refuse .noSession) hh rfl hf (.inl hr)
      (congrArg Nat.succ hl) (by rw [State.cmdWriteRule, if_neg (by rw [hs']; decide)]))
  case profileOther =>
    have hs' : ((s.elapse dt).raiseAgent .requestsTaken).ownsSession m.port m.requester = false := hs
    exact congrArg Host.Outcome.next (State.agentRow_answers (a := .refuse .noSession) hh rfl hf (.inl hr)
      (congrArg Nat.succ hl) (by rw [State.cmdWriteProfile, if_neg (by rw [hs']; decide)]))

/-! ### COMMIT (R48 to R52, R157) -/

/-- R39, R73: no old slot stands in a queue or position. -/
theorem State.oldCount_eq_zero (s : State) :
    s.oldCount = 0 ↔ ∀ p, ∀ x ∈ (s.port p).slots, Slot.isOld s.commitCount x = false := by
  unfold State.oldCount
  rw [Nat.add_eq_zero_iff, List.countP_eq_zero, List.countP_eq_zero]
  simp only [Bool.not_eq_true]
  exact ⟨fun h p => by cases p; exacts [h.1, h.2], fun h => ⟨h .A, h .B⟩⟩

theorem commitMode_some {mode : Byte} (h : mode.toNat ≤ 1) :
    ∃ k, CommitMode.ofCode mode = some k ∧ (k = .swap ↔ mode = 0) ∧ (k = .fence ↔ mode = 1) := by
  have hmode : mode = 0 ∨ mode = 1 := by bv_omega
  rcases hmode with rfl | rfl
  · exact ⟨.swap, rfl, by decide, by decide⟩
  · exact ⟨.fence, rfl, by decide, by decide⟩

theorem commitMode_none {mode : Byte} (h : 1 < mode.toNat) : CommitMode.ofCode mode = none := by
  rw [CommitMode.ofCode, if_neg (byte_ne_of_le h (by decide)), if_neg (byte_ne_of_le h (by decide))]

theorem fenceTimeoutValid_iff (t : Nat) : fenceTimeoutValid t = true ↔ t = 0 ∨ (10 ≤ t ∧ t ≤ 5000) := by
  simp [fenceTimeoutValid]

/-- R48, R157: the refusals of COMMIT at step 6, in their order, and the commit that is taken. -/
theorem State.cmdCommit_cases (s : State) (m : MgmtSlot) (mode hi lo : Byte) :
    (s.ownsSession m.port m.requester = false →
      s.cmdCommit m [mode, hi, lo] = (s, some (.refuse .noSession))) ∧
    (s.ownsSession m.port m.requester = true →
      (s.fence.isSome = true → s.cmdCommit m [mode, hi, lo] = (s, some (.refuse .fencePending))) ∧
      (s.fence = none →
        (¬(mode.toNat ≤ 1 ∧ fenceTimeoutValid (hi.toNat * 256 + lo.toNat) = true) →
          s.cmdCommit m [mode, hi, lo] = (s, some (.refuse .badArgument))) ∧
        ∀ k, CommitMode.ofCode mode = some k → fenceTimeoutValid (hi.toNat * 256 + lo.toNat) = true →
          s.cmdCommit m [mode, hi, lo] = s.takeCommit m k (hi.toNat * 256 + lo.toNat))) := by
  simp only [State.cmdCommit, byteAt, be16At, List.getD_cons_zero, List.getD_cons_succ]
  refine ⟨fun hs => if_pos hs, fun hs => ?_⟩
  rw [if_neg (by rw [hs]; decide)]
  refine ⟨fun hf => if_pos hf, fun hf => ?_⟩
  rw [if_neg (by rw [hf]; decide)]
  refine ⟨fun hbad => ?_, fun k hk ht => ?_⟩
  · by_cases hmode : mode.toNat ≤ 1
    · obtain ⟨k, hk, -⟩ := commitMode_some hmode
      rw [hk]
      exact if_neg fun ht => hbad ⟨hmode, ht⟩
    · rw [commitMode_none (Nat.not_le.mp hmode)]
  · rw [hk]
    exact if_pos ht

/-- R48, R50: the answer of a commit that ends in its own event. -/
theorem State.answer_swapped (s : State) (dt : Nat) (m : MgmtSlot) (result : List Byte) :
    ((s.elapse dt).raiseAgent .requestsTaken).swapBanks.popRequest.answer m .ok result .none =
      { s.answered dt m m.tag (okRecord m.tag m.code result) .none with
        active := s.active.other
        commitCount := s.commitCount + 1
        session := none
        agentCounters := raiseAll AgentCounter.index [.requestsTaken, .commits] s.agentCounters } := by
  rw [State.answer_eq]
  unfold State.answered
  cases m.port <;> rfl

/-- Settles O57: step 6 refuses in R157's order; a commit taken swaps the banks and looks for old slots after the count
has moved. -/
theorem commitSwapsAndFences : Obligations.CommitSwapsAndFences := by
  intro dt tag mode hi lo m s hh hf hr
  have ht := MgmtSlot.tag_eq hh.2
  have hc := MgmtSlot.code_eq hh.2
  obtain ⟨hnone, howner⟩ := State.cmdCommit_cases ((s.elapse dt).raiseAgent .requestsTaken) m mode hi lo
  have refused : ∀ st, ((s.elapse dt).raiseAgent .requestsTaken).cmdCommit m [mode, hi, lo] =
        ((s.elapse dt).raiseAgent .requestsTaken, some (.refuse st)) →
      exec (.commit dt) s = .next (s.answered dt m tag (refusalRecord tag 7 st) .none) := fun st hsix => by
    refine congrArg Host.Outcome.next ((State.agentRow_answers hh rfl hf (.inl hr) rfl hsix).trans ?_)
    exact congrArg (s.answered dt m tag · .none) (responseRecord_refusal tag 7 st)
  refine ⟨fun hs => refused _ (hnone hs), fun hs => ⟨fun hfence => ?pending, fun hfence => ⟨fun hbad => ?bad,
    fun hvalid hend => ?swaps, fun hvalid hmode hold => ?fences⟩⟩⟩
  case pending => exact refused _ ((howner hs).1 hfence)
  case bad =>
    refine refused _ (((howner hs).2 hfence).1 fun h => hbad ⟨h.1, ?_⟩)
    exact (fenceTimeoutValid_iff _).mp h.2
  all_goals
    obtain ⟨hmode1, htime⟩ := hvalid
    obtain ⟨k, hk, hswap, hfen⟩ := commitMode_some hmode1
    have hsix := ((howner hs).2 hfence).2 k hk ((fenceTimeoutValid_iff _).mpr htime)
    have hold' := State.oldCount_eq_zero ((s.elapse dt).raiseAgent .requestsTaken).swapBanks
  case swaps =>
    have htaken : ((s.elapse dt).raiseAgent .requestsTaken).takeCommit m k (hi.toNat * 256 + lo.toNat) =
        (((s.elapse dt).raiseAgent .requestsTaken).swapBanks,
          some (.okWith (((s.elapse dt).raiseAgent .requestsTaken).swapBanks.commitResult 0))) := by
      cases k with
      | swap => rfl
      | fence =>
        refine if_pos (hold'.mpr ?_)
        rcases hend with h | h
        · exact absurd (hswap.mpr h) (by decide)
        · intro p x hx
          have hx' : x ∈ (s.port p).slots := by cases p <;> exact hx
          cases x with
          | data d => exact h p _ hx'
          | mgmt m => rfl
    refine congrArg Host.Outcome.next ?_
    rw [State.agentRow_leaves hh rfl hf (.inl hr) rfl (hsix.trans htaken)]
    simp only [Answer.okWith, State.answer_swapped, ht, hc]
    rfl
  case fences =>
    obtain rfl := hfen.mpr hmode
    have hne : ((s.elapse dt).raiseAgent .requestsTaken).swapBanks.oldCount ≠ 0 := by
      intro h0
      refine hold fun p x hx => ?_
      have hx' : x ∈ (((s.elapse dt).raiseAgent .requestsTaken).swapBanks.port p).slots := by cases p <;> exact hx
      have := hold'.mp h0 p x hx'
      cases x with
      | data d => exact this
      | mgmt m => rfl
    refine congrArg Host.Outcome.next ?_
    rw [State.agentRow_ready State.cmdCommit dt hh rfl hf (.inl hr) rfl, hsix]
    simp only [State.takeCommit, if_neg hne]
    rfl

/-! ### SET-METER (R162) -/

theorem State.answer_meters (s : State) (dt : Nat) (v : Vector Meter 16) (m : MgmtSlot) (st : Status)
    (result : List Byte) (t : Trigger) :
    ({ (s.elapse dt).raiseAgent .requestsTaken with meters := v } : State).popRequest.answer m st result t =
      { s.answered dt m m.tag (responseRecord m.tag m.code st result) t with meters := v } := by
  rw [State.answer_eq]
  unfold State.answered
  cases m.port <;> rfl

theorem State.cmdSetMeter_cases (s : State) (m : MgmtSlot) (idx c1 c0 r1 r0 n1 n0 : Byte) :
    (∀ h : idx.toNat < 16, 1 ≤ n1.toNat * 256 + n0.toNat → n1.toNat * 256 + n0.toNat ≤ 1000 →
      s.cmdSetMeter m [idx, c1, c0, r1, r0, n1, n0] =
        ({ s with
            meters := s.meters.set idx.toNat
              ⟨c1.toNat * 256 + c0.toNat, r1.toNat * 256 + r0.toNat, n1.toNat * 256 + n0.toNat,
                c1.toNat * 256 + c0.toNat, s.now⟩ h },
          some (.okWith []))) ∧
    (16 ≤ idx.toNat → s.cmdSetMeter m [idx, c1, c0, r1, r0, n1, n0] = (s, some (.refuse .badIndex))) ∧
    (idx.toNat < 16 → n1.toNat * 256 + n0.toNat = 0 ∨ 1000 < n1.toNat * 256 + n0.toNat →
      s.cmdSetMeter m [idx, c1, c0, r1, r0, n1, n0] = (s, some (.refuse .badArgument))) := by
  simp only [State.cmdSetMeter, byteAt, be16At, List.getD_cons_zero, List.getD_cons_succ]
  refine ⟨fun h h1 h2 => ?_, fun h => dif_neg (Nat.not_lt.mpr h), fun h hbad => ?_⟩
  · rw [dif_pos h, if_pos ⟨h1, h2⟩]
  · rw [dif_pos h, if_neg (by omega)]

/-! ### SET-PORT (R164, R165) -/

/-- R164: a field that the mask does not give is not looked at. -/
theorem within_iff (given : Bool) (v lo hi : Nat) :
    (!given || (decide (lo ≤ v) && decide (v ≤ hi))) = true ↔ (given = true → lo ≤ v ∧ v ≤ hi) := by
  cases given <;> simp

theorem rate_getD {v : Byte} (h : v.toNat ≤ 2) (old : Rate) :
    (Rate.ofCode v).getD old = if v.toNat = 0 then .k62 else if v.toNat = 1 then .k250 else .k1000 := by
  have hv : v = 0 ∨ v = 1 ∨ v = 2 := by bv_omega
  rcases hv with rfl | rfl | rfl <;> rfl

/-- SET-PORT at step 6, its port decoded. -/
theorem State.cmdSetPort_eq {s : State} {m : MgmtSlot} {pc m1 m0 : Byte} {b : List Byte} {p : Port}
    (hp : portOfCode pc = some p) :
    let block : ParamBlock := ⟨m1.toNat * 256 + m0.toNat, b⟩
    s.cmdSetPort m (pc :: m1 :: m0 :: b) =
      if block.inRange = true ∧ (block.params (s.port p).params).gapsOrdered = true then
        (s.modPort p (PortState.applyBlock block), some (.okWith []))
      else (s, some (.refuse .badArgument)) := by
  simp only [State.cmdSetPort, byteAt, List.getD_cons_zero, hp]
  rfl

theorem State.answer_applyBlock (s : State) (p : Port) (b : ParamBlock) (m : MgmtSlot) (st : Status)
    (result : List Byte) (t : Trigger) :
    (s.modPort p (PortState.applyBlock b)).popRequest.answer m st result t =
      (s.popRequest.answer m st result t).modPort p (PortState.applyBlock b) :=
  s.answer_modPort p id id (fun x => b.params x.params) (fun x => b.settings x.staged) m st result t (fun _ _ => rfl)
    fun _ _ => rfl

theorem State.modPort_congr {s : State} {p : Port} {f g : PortState → PortState} (h : f (s.port p) = g (s.port p)) :
    s.modPort p f = s.modPort p g := by
  cases p
  · exact congrArg (fun x => { s with portA := x }) h
  · exact congrArg (fun x => { s with portB := x }) h

/-- The answer leaves a port's parameters and staged values to the block. -/
theorem State.answered_applyBlock {s : State} {p : Port} {b : ParamBlock} {params : Params} {staged : Settings}
    (hp : b.params (s.port p).params = params) (hg : b.settings (s.port p).staged = staged) {dt : Nat} {m : MgmtSlot}
    {tag : Byte} {record : List Byte} {t : Trigger} :
    PortState.applyBlock b ((s.answered dt m tag record t).port p) =
      { (s.answered dt m tag record t).port p with params, staged } := by
  subst hp hg
  unfold State.answered PortState.applyBlock
  cases p <;> cases m.port <;> rfl

theorem Params.gapsOrdered_iff (q : Params) :
    q.gapsOrdered = true ↔ q.replyWait < q.urgentGap ∧ q.urgentGap < q.normalGap := by
  simp only [Params.gapsOrdered, Bool.and_eq_true, decide_eq_true_eq]

/-- Settles O59: what a block gives is decoded field by field, checked for range and for the order of the gaps, and
written only when both hold. -/
theorem metersAndPortsAreSet : Obligations.MetersAndPortsAreSet := by
  intro dt tag m s hf hr
  have ports : ∀ p : Port, ((s.elapse dt).raiseAgent .requestsTaken).port p = s.port p := fun p =>
    (State.raiseAgent_port ..).trans (State.elapse_port ..)
  refine ⟨fun idx c1 c0 r1 r0 n1 n0 hh => ?meter, fun pc m1 m0 b hh hl hpc => ?undefined,
    fun pc m1 m0 b p hh hl hpc => ?port⟩
  case meter =>
    obtain ⟨hset, hindex, hbad⟩ :=
      State.cmdSetMeter_cases ((s.elapse dt).raiseAgent .requestsTaken) m idx c1 c0 r1 r0 n1 n0
    refine ⟨fun h h1 h2 => ?_, fun h => ?_, fun h hb => ?_⟩
    · refine congrArg Host.Outcome.next ?_
      rw [State.agentRow_leaves hh rfl hf (.inl hr) rfl (hset h h1 h2)]
      simp only [Answer.okWith, State.answer_meters, MgmtSlot.tag_eq hh.2, MgmtSlot.code_eq hh.2]
      rfl
    · exact congrArg Host.Outcome.next (State.agentRow_answers hh rfl hf (.inl hr) rfl (hindex h))
    · exact congrArg Host.Outcome.next (State.agentRow_answers hh rfl hf (.inl hr) rfl (hbad h hb))
  case undefined =>
    exact congrArg Host.Outcome.next (State.agentRow_refused hh rfl hf (.inl hr)
      (show b.length + 3 = 27 by omega) fun u => by
        simp only [State.cmdSetPort, byteAt, List.getD_cons_zero, portOfCode_none hpc])
  case port =>
    obtain ⟨hp, -⟩ := portOfCode_some hpc
    intro mask byte one two within inRange q g params
    have hlen : (pc :: m1 :: m0 :: b).length = Command.setPort.argBytes := show b.length + 3 = 27 by omega
    have hsix := State.cmdSetPort_eq (s := (s.elapse dt).raiseAgent .requestsTaken) (m := m) (m1 := m1) (m0 := m0)
      (b := b) hp
    have hparams : (⟨mask, b⟩ : ParamBlock).params (s.port p).params = params := rfl
    have hrange : (⟨mask, b⟩ : ParamBlock).inRange = true ↔ inRange := by
      simp only [ParamBlock.inRange, Bool.and_eq_true, within_iff, Bool.not_eq_true', and_assoc]
      exact Iff.rfl
    simp only [ports] at hsix
    refine ⟨fun hr1 h1 h2 => ?_, fun hbad => ?_⟩
    · rw [if_pos ⟨hrange.mpr hr1, (Params.gapsOrdered_iff _).mpr ⟨h1, h2⟩⟩] at hsix
      have hsettings : (⟨mask, b⟩ : ParamBlock).settings g =
          { rate := if mask.testBit 11 then
              (if byte 21 = 0 then .k62 else if byte 21 = 1 then .k250 else .k1000) else g.rate
            own := if mask.testBit 12 then b.getD 22 0 else g.own
            queueLimit := one 13 23 g.queueLimit } := by
        obtain ⟨-, -, -, -, -, -, -, -, -, -, -, -, hrate, -⟩ := hr1
        have hrate' : (if mask.testBit 11 then (Rate.ofCode (byteAt b 21)).getD g.rate else g.rate) =
            if mask.testBit 11 then (if byte 21 = 0 then .k62 else if byte 21 = 1 then .k250 else .k1000) else g.rate := by
          cases hb : mask.testBit 11 with
          | false => rfl
          | true => exact rate_getD (v := byteAt b 21) (hrate hb).2 g.rate
        exact congrArg (fun r => ({ rate := r, own := _, queueLimit := _ } : Settings)) hrate'
      refine congrArg Host.Outcome.next ?_
      rw [State.agentRow_leaves hh rfl hf (.inl hr) hlen hsix]
      simp only [Answer.okWith, State.answer_applyBlock, State.answer_popped, MgmtSlot.tag_eq hh.2, MgmtSlot.code_eq hh.2]
      exact State.modPort_congr (State.answered_applyBlock hparams hsettings)
    · rw [if_neg] at hsix
      · exact congrArg Host.Outcome.next (State.agentRow_answers hh rfl hf (.inl hr) hlen hsix)
      · rintro ⟨h1, h2⟩
        obtain ⟨h3, h4⟩ := (Params.gapsOrdered_iff _).mp h2
        rcases hbad with hbad | hbad | hbad
        · exact hbad (hrange.mp h1)
        · exact absurd h3 (Nat.not_lt.mpr hbad)
        · exact absurd h4 (Nat.not_lt.mpr hbad)

end Sys2Proof.Machine
end

section
/-! PROOF. ENROL and DISMISS (R137, R152, R153; O54). -/

namespace Sys2Proof.Machine

/-! ### What the two commands do to the table and the session -/

theorem Manager.is_iff (e : Manager) (p : Port) (a : Byte) : e.is p a = true ↔ e.port = p ∧ e.addr = a := by
  simp only [Manager.is, Bool.and_eq_true, beq_iff_eq]

theorem State.noOtherWriter_iff (s : State) (p : Port) (a : Byte) :
    s.noOtherWriter p a = true ↔ ∀ x ∈ s.managers, x.right = .write → x.port = p ∧ x.addr = a := by
  simp only [State.noOtherWriter, List.all_eq_true, Bool.or_eq_true, Manager.is_iff, decide_eq_true_eq]
  refine forall₂_congr fun x _ => ?_
  rw [or_comm, or_iff_not_imp_left, not_not]

/-- R46, R47: dropping the session of an owner leaves any other. -/
theorem State.dropSession_filter (s : State) (p : Port) (a : Byte) :
    s.dropSession p a = { s with session := s.session.filter fun d => !(d.port == p && d.addr == a) } := by
  have hfilter : s.session.filter (fun d => !(d.port == p && d.addr == a)) =
      if s.ownsSession p a then none else s.session := by
    unfold State.ownsSession
    cases s.session with
    | none => rfl
    | some d => cases hd : (d.port == p && d.addr == a) <;> simp [Option.filter, hd]
  rw [hfilter]
  unfold State.dropSession
  split <;> rfl

theorem State.changeRight_record (s : State) (p : Port) (a : Byte) (was r : Right) :
    s.changeRight p a was r =
      { s with
        managers := s.managers.map fun x => if x.port = p ∧ x.addr = a then { x with right := r } else x
        session := if was = .write ∧ r = .read then s.session.filter fun d => !(d.port == p && d.addr == a)
          else s.session } := by
  have hmap : (s.modManager p a fun e => { e with right := r }) =
      { s with
        managers := s.managers.map fun x => if x.port = p ∧ x.addr = a then { x with right := r } else x } := by
    unfold State.modManager
    simp only [Manager.is_iff]
  unfold State.changeRight
  dsimp only
  rw [hmap, State.dropSession_filter]
  split <;> rfl

/-! ### The response's record in a table that has just changed (R142) -/

theorem managersAnswered_append {ms : List Manager} {e : Manager} {m : MgmtSlot}
    (h : ¬(e.port = m.port ∧ e.addr = m.requester)) (tag : Byte) (record : List Byte) :
    managersAnswered (ms ++ [e]) m tag record = managersAnswered ms m tag record ++ [e] := by
  simp only [managersAnswered, List.map_append, List.map_cons, List.map_nil, if_neg fun hk => h (And.right hk)]

theorem managersAnswered_filter (ms : List Manager) (m : MgmtSlot) (tag : Byte) (record : List Byte) (p : Port)
    (a : Byte) :
    managersAnswered (ms.filter fun x => !x.is p a) m tag record =
      (managersAnswered ms m tag record).filter fun x => !(x.port == p && x.addr == a) := by
  unfold managersAnswered
  rw [List.filter_map]
  refine congrArg _ (List.filter_congr fun x _ => ?_)
  simp only [Function.comp_apply]
  split <;> rfl

/-- R142: the record of the first manager's response, in the table that holds it alone. -/
theorem managersAnswered_first (m : MgmtSlot) (tag : Byte) (record : List Byte) :
    managersAnswered [⟨m.port, m.requester, .write, none, none⟩] m tag record =
      [{ port := m.port, addr := m.requester, right := .write, pendingTag := none,
         last := if tag = 0 then none else some (tag, record) }] := by
  unfold managersAnswered
  by_cases h : tag = 0
  · rw [if_pos h]
    exact congrArg (· :: []) (if_neg fun hk => hk.1 h)
  · rw [if_neg h]
    exact congrArg (· :: []) (if_pos ⟨h, rfl, rfl⟩)

/-- The answer of a row whose step 6 left table and session so. -/
theorem State.answer_table (s : State) (c : Instr) (dt : Nat) (ms : List Manager) (d : Option Session) (m : MgmtSlot)
    (st : Status) (result : List Byte) (t : Trigger) :
    ({ ((s.pinned c).elapse dt).raiseAgent .requestsTaken with managers := ms, session := d } : State).popRequest.answer
        m st result t =
      { s.answered dt m m.tag (responseRecord m.tag m.code st result) t with
        pins := pinsAfter c s.pins
        managers := managersAnswered ms m m.tag (responseRecord m.tag m.code st result)
        session := d } := by
  rw [State.answer_eq]
  unfold State.answered
  cases m.port <;> rfl

/-! ### Step 6 of the two commands -/

theorem State.cmdEnrol_entry {s : State} {m : MgmtSlot} {e : Manager} (h : s.manager m.port m.requester = some e)
    {pc a rc : Byte} {p : Port} {r : Right} (hp : portOfCode pc = some p) (hr : Right.ofCode rc = some r)
    (ha : a ≠ 255) : s.cmdEnrol m [pc, a, rc] = s.enrolEntry p a r := by
  simp only [State.cmdEnrol, h, byteAt, List.getD_cons_zero, List.getD_cons_succ, hp, hr, if_neg ha]

theorem rightOfCode_none {rc : Byte} (h : rc = 0 ∨ 3 ≤ rc.toNat) : Right.ofCode rc = none := by
  have h1 : rc ≠ 1 := by rintro rfl; revert h; decide
  have h2 : rc ≠ 2 := by rintro rfl; revert h; decide
  rw [Right.ofCode, if_neg h1, if_neg h2]

theorem State.cmdEnrol_bad {s : State} {m : MgmtSlot} {e : Manager} (h : s.manager m.port m.requester = some e)
    {pc a rc : Byte} (hbad : 2 ≤ pc.toNat ∨ a = 255 ∨ rc = 0 ∨ 3 ≤ rc.toNat) :
    s.cmdEnrol m [pc, a, rc] = (s, some (.refuse .badArgument)) := by
  simp only [State.cmdEnrol, h, byteAt, List.getD_cons_zero, List.getD_cons_succ]
  split
  · rename_i p r hp hr
    rcases hbad with hbad | hbad | hbad
    · cases hp.symm.trans (portOfCode_none hbad)
    · exact if_pos hbad
    · cases hr.symm.trans (rightOfCode_none hbad)
  · rfl

theorem State.cmdDismiss_entry {s : State} {m : MgmtSlot} {pc a : Byte} {p : Port} (hp : portOfCode pc = some p)
    (ha : a ≠ 255) : s.cmdDismiss m [pc, a] = s.dismissEntry p a := by
  simp only [State.cmdDismiss, byteAt, List.getD_cons_zero, List.getD_cons_succ, hp, if_neg ha]

theorem State.cmdDismiss_bad (s : State) (m : MgmtSlot) {pc a : Byte} (hbad : 2 ≤ pc.toNat ∨ a = 255) :
    s.cmdDismiss m [pc, a] = (s, some (.refuse .badArgument)) := by
  simp only [State.cmdDismiss, byteAt, List.getD_cons_zero, List.getD_cons_succ]
  split
  · rename_i p hp
    rcases hbad with hbad | hbad
    · cases hp.symm.trans (portOfCode_none hbad)
    · exact if_pos hbad
  · rfl

/-- R152: ENROL of a station that has no entry. -/
theorem State.enrolEntry_new {s : State} {p : Port} {a : Byte} (h : s.manager p a = none) (r : Right) :
    (6 ≤ s.managers.length → s.enrolEntry p a r = (s, some (.refuse .tableFull))) ∧
    (s.managers.length < 6 → s.enrolEntry p a r =
      ({ s with managers := s.managers ++ [⟨p, a, r, none, none⟩], session := s.session }, some (enrolled p a r))) := by
  simp only [State.enrolEntry, h]
  exact ⟨fun hfull => if_pos hfull, fun hroom => if_neg (Nat.not_le.mpr hroom)⟩

/-- R47, R152: ENROL of a station that has an entry. -/
theorem State.enrolEntry_old {s : State} {p : Port} {a : Byte} {e : Manager} (h : s.manager p a = some e) (r : Right) :
    (e.right = .write ∧ r = .read ∧ s.noOtherWriter p a = true ∧ s.pins.enrolEn = false →
      s.enrolEntry p a r = (s, some (.refuse .lastManager))) ∧
    (¬(e.right = .write ∧ r = .read ∧ s.noOtherWriter p a = true ∧ s.pins.enrolEn = false) → s.enrolEntry p a r =
      ({ s with
          managers := s.managers.map fun x => if x.port = p ∧ x.addr = a then { x with right := r } else x
          session := if e.right = .write ∧ r = .read then s.session.filter fun d => !(d.port == p && d.addr == a)
            else s.session },
        some (enrolled p a r))) := by
  simp only [State.enrolEntry, h, State.changeRight_record]
  exact ⟨fun hlast => if_pos hlast, fun hlast => if_neg hlast⟩

/-- R46, R153: DISMISS of a station that has an entry. -/
theorem State.dismissEntry_old {s : State} {p : Port} {a : Byte} {e : Manager} (h : s.manager p a = some e) :
    (e.right = .write ∧ s.noOtherWriter p a = true ∧ s.pins.enrolEn = false →
      s.dismissEntry p a = (s, some (.refuse .lastManager))) ∧
    (¬(e.right = .write ∧ s.noOtherWriter p a = true ∧ s.pins.enrolEn = false) → s.dismissEntry p a =
      ({ s with
          managers := s.managers.filter fun x => !x.is p a
          session := s.session.filter fun d => !(d.port == p && d.addr == a) },
        some (.okWith []))) := by
  simp only [State.dismissEntry, h, State.dropSession_filter]
  exact ⟨fun hlast => if_pos hlast, fun hlast => if_neg hlast⟩

/-- R137: step 6 of the first manager's ENROL, which looks at no argument. -/
theorem State.agentRow_firstEnrol {s : State} {m : MgmtSlot} {dt : Nat} {tag : Byte} {args : List Byte}
    (hh : s.Heads m tag 2 args) (hf : s.Fresh m tag) (hl : args.length = 3) (hm : s.managers = []) :
    ((s.pinned (.enrol dt true)).elapse dt).agentRow (some .enrol) State.cmdEnrol =
      ({ ((s.pinned (.enrol dt true)).elapse dt).raiseAgent .requestsTaken with
          managers := [⟨m.port, m.requester, .write, none, none⟩], session := s.session } : State).popRequest.answer m .ok
        [portCode m.port, m.requester, 2] .none := by
  obtain ⟨hq, hp⟩ := hh
  have hnone : s.manager m.port m.requester = none := by rw [State.manager, hm]; rfl
  obtain rfl := MgmtSlot.tag_eq hp
  rw [State.agentRow_fresh (s := s.pinned (.enrol dt true)) (c := some .enrol) State.cmdEnrol dt hq
    (MgmtSlot.command_eq hp) hf]
  generalize hu : ((s.pinned (.enrol dt true)).elapse dt).raiseAgent .requestsTaken = u
  have hun : u.manager m.port m.requester = none := by rw [← hu]; exact hnone
  have hum : u.managers = [] := by rw [← hu]; exact hm
  have hue : u.pins.enrolEn = true := by rw [← hu]; rfl
  have hus : u.session = s.session := by rw [← hu]; rfl
  have hright : u.rightRefusal .enrol m = none := by
    rw [State.rightRefusal_stranger hun, if_pos (.inr ⟨rfl, hum, hue⟩)]
  dsimp only
  rw [State.carryOut_six State.cmdEnrol hright (by rw [MgmtSlot.args_eq hp, hl]; rfl)]
  simp only [State.cmdEnrol, hun, State.addManager, hum, List.nil_append, ← hus]
  rfl

/-- Settles O54: the last WRITE manager is looked for before the table is changed, and the response's record is taken
by the table as it then stands. -/
theorem managersAreEnrolledAndDismissed : Obligations.ManagersAreEnrolledAndDismissed := by
  intro dt en tag m s hf pins refused
  refine ⟨fun x y z hh hm hen => ?first, fun hr => ?rest⟩
  case first =>
    subst hen
    refine congrArg Host.Outcome.next ((State.agentRow_firstEnrol hh hf rfl hm).trans ?_)
    rw [State.answer_table, managersAnswered_first, MgmtSlot.tag_eq hh.2,
      MgmtSlot.code_eq hh.2]
    unfold State.answered
    cases m.port <;> rfl
  case rest =>
    obtain ⟨own, hown, hwrite⟩ := Option.map_eq_some_iff.mp hr
    -- a refusal at step 6, and a change of table and session
    have refusal : ∀ {c : Instr} {six : StepSix} {k : Command} {code : Byte} {args : List Byte} {st : Status},
        s.Heads m tag code args → Command.ofCode code = some k → args.length = k.argBytes →
        pinsAfter c s.pins = pins →
        six (((s.pinned c).elapse dt).raiseAgent .requestsTaken) m args =
          (((s.pinned c).elapse dt).raiseAgent .requestsTaken, some (.refuse st)) →
        ((s.pinned c).elapse dt).agentRow (some k) six = refused code st := by
      intro c six k code args st hh hk hl hpins hsix
      have := State.agentRow_answers (s := s.pinned c) hh hk hf (.inl hr) hl hsix
      rw [this, State.answered_pinned, hpins]
      exact congrArg (fun r => ({ s.answered dt m tag r .none with pins := pins } : State))
        (responseRecord_refusal tag code st)
    have change : ∀ {c : Instr} {six : StepSix} {k : Command} {code : Byte} {args result : List Byte}
        {ms : List Manager} {d : Option Session},
        s.Heads m tag code args → Command.ofCode code = some k → args.length = k.argBytes →
        pinsAfter c s.pins = pins →
        six (((s.pinned c).elapse dt).raiseAgent .requestsTaken) m args =
          ({ ((s.pinned c).elapse dt).raiseAgent .requestsTaken with managers := ms, session := d },
            some (.okWith result)) →
        ((s.pinned c).elapse dt).agentRow (some k) six =
          { s.answered dt m tag (okRecord tag code result) .none with
            pins := pins, managers := managersAnswered ms m tag (okRecord tag code result), session := d } := by
      intro c six k code args result ms d hh hk hl hpins hsix
      rw [State.agentRow_leaves (s := s.pinned c) hh hk hf (.inl hr) hl hsix]
      simp only [Answer.okWith, State.answer_table, hpins, MgmtSlot.tag_eq hh.2, MgmtSlot.code_eq hh.2]
      rfl
    refine ⟨fun pc a rc hh hbad => ?badEnrol, fun pc a hh hbad => ?badDismiss, fun pc a p hpc ha => ?entry⟩
    case badEnrol =>
      exact congrArg Host.Outcome.next (refusal (c := .enrol dt en) hh rfl rfl rfl
        (State.cmdEnrol_bad (s := ((s.pinned _).elapse dt).raiseAgent .requestsTaken) hown hbad))
    case badDismiss =>
      exact congrArg Host.Outcome.next (refusal (c := .dismiss dt en) hh rfl rfl rfl (State.cmdDismiss_bad _ m hbad))
    case entry =>
      intro lastWriter withoutOwner
      obtain ⟨hp, hcode⟩ := portOfCode_some hpc
      have last : ∀ {u : State}, u.managers = s.managers → u.pins = pins →
          (u.noOtherWriter p a = true ∧ u.pins.enrolEn = false ↔ lastWriter) := fun hm hp => by
        rw [State.noOtherWriter_iff, hm, hp]
        exact and_comm
      refine ⟨fun rc r hrc hh => ?enrol, fun hh => ?dismiss⟩
      case enrol =>
        obtain ⟨hrc, hrcode⟩ : Right.ofCode rc = some r ∧ r.code = rc := by
          rcases hrc with ⟨rfl, rfl⟩ | ⟨rfl, rfl⟩ <;> exact ⟨rfl, rfl⟩
        subst hrcode hcode
        have hsix := State.cmdEnrol_entry (s := ((s.pinned (.enrol dt en)).elapse dt).raiseAgent .requestsTaken) hown hp
          hrc ha
        have hlast := last (u := ((s.pinned (.enrol dt en)).elapse dt).raiseAgent .requestsTaken) rfl rfl
        refine ⟨fun hno => ?_, fun e he => ?_⟩
        · obtain ⟨full, added⟩ :=
            State.enrolEntry_new (s := ((s.pinned (.enrol dt en)).elapse dt).raiseAgent .requestsTaken) hno r
          refine ⟨fun hfull => ?_, fun hroom => ?_⟩
          · exact congrArg Host.Outcome.next (refusal (c := .enrol dt en) hh rfl rfl rfl (hsix.trans (full hfull)))
          · refine congrArg Host.Outcome.next
              ((change (c := .enrol dt en) hh rfl rfl rfl (hsix.trans (added hroom))).trans ?_)
            have hother : ¬(p = m.port ∧ a = m.requester) := by
              rintro ⟨rfl, rfl⟩
              cases hno.symm.trans hown
            rw [managersAnswered_append hother]
            unfold State.answered
            cases m.port <;> rfl
        · obtain ⟨kept, changed⟩ :=
            State.enrolEntry_old (s := ((s.pinned (.enrol dt en)).elapse dt).raiseAgent .requestsTaken) he r
          refine ⟨fun hw hread hl => ?_, fun hok => ?_⟩
          · exact congrArg Host.Outcome.next (refusal (c := .enrol dt en) hh rfl rfl rfl
              (hsix.trans (kept ⟨hw, hread, hlast.mpr hl⟩)))
          · refine congrArg Host.Outcome.next
              (change (c := .enrol dt en) hh rfl rfl rfl (hsix.trans (changed ?_)))
            rintro ⟨hw, hread, hl⟩
            rcases hok with h | h | h
            · exact absurd (h.symm.trans hw) (by decide)
            · exact absurd (h.symm.trans hread) (by decide)
            · exact h (hlast.mp hl)
      case dismiss =>
        have hsix := State.cmdDismiss_entry (s := ((s.pinned (.dismiss dt en)).elapse dt).raiseAgent .requestsTaken)
          (m := m) hp ha
        have hlast := last (u := ((s.pinned (.dismiss dt en)).elapse dt).raiseAgent .requestsTaken) rfl rfl
        refine ⟨fun hno => ?_, fun e he => ?_⟩
        · have hmiss : (((s.pinned (.dismiss dt en)).elapse dt).raiseAgent .requestsTaken).manager p a = none := hno
          exact congrArg Host.Outcome.next (refusal (c := .dismiss dt en) hh rfl rfl rfl
            (hsix.trans (by simp only [State.dismissEntry, hmiss])))
        · obtain ⟨kept, removed⟩ :=
            State.dismissEntry_old (s := ((s.pinned (.dismiss dt en)).elapse dt).raiseAgent .requestsTaken) he
          refine ⟨fun hw hl => ?_, fun hok => ?_⟩
          · exact congrArg Host.Outcome.next (refusal (c := .dismiss dt en) hh rfl rfl rfl
              (hsix.trans (kept ⟨hw, hlast.mpr hl⟩)))
          · refine congrArg Host.Outcome.next
              ((change (c := .dismiss dt en) hh rfl rfl rfl (hsix.trans (removed ?_))).trans ?_)
            · rintro ⟨hw, hl⟩
              rcases hok with h | h
              · exact absurd (h.symm.trans hw) (by decide)
              · exact h (hlast.mp hl)
            · rw [managersAnswered_filter]
              rfl

end Sys2Proof.Machine
end

section
/-! PROOF. The walk and its conclusion (R10 to R23; O21 to O25). -/

namespace Sys2Proof.Machine

/-! ### The entries a walk visits (R11, R13) -/

/-- `Bank.visited`, among the entries at the indices given. -/
def Bank.visitedFrom (b : Bank) (p : Port) (f : Frame) (l : List (Fin 128)) : List (Fin 128) :=
  let hits := l.filter fun i => b.entries[i].matches p f
  let goesOn (i : Fin 128) : Bool := decide (b.entries[i].chain = .continue)
  hits.takeWhile goesOn ++ (hits.dropWhile goesOn).take 1

theorem Bank.visited_eq (b : Bank) (p : Port) (f : Frame) : b.visited p f = b.visitedFrom p f (List.finRange 128) := rfl

section
variable {b : Bank} {p : Port} {f : Frame} {i : Fin 128}

theorem Bank.visitedFrom_skip (h : b.entries[i].matches p f = false) (rest : List (Fin 128)) :
    b.visitedFrom p f (i :: rest) = b.visitedFrom p f rest := by
  unfold Bank.visitedFrom
  rw [List.filter_cons_of_neg (by rw [h]; decide)]

theorem Bank.visitedFrom_stop (h : b.entries[i].matches p f = true) (hc : b.entries[i].chain = .stop)
    (rest : List (Fin 128)) : b.visitedFrom p f (i :: rest) = [i] := by
  unfold Bank.visitedFrom
  rw [List.filter_cons_of_pos (p := fun j : Fin 128 => b.entries[j].matches p f) h]
  simp only [List.takeWhile_cons, List.dropWhile_cons, hc]
  rfl

theorem Bank.visitedFrom_continue (h : b.entries[i].matches p f = true) (hc : b.entries[i].chain = .continue)
    (rest : List (Fin 128)) : b.visitedFrom p f (i :: rest) = i :: b.visitedFrom p f rest := by
  unfold Bank.visitedFrom
  rw [List.filter_cons_of_pos (p := fun j : Fin 128 => b.entries[j].matches p f) h]
  simp only [List.takeWhile_cons, List.dropWhile_cons, hc]
  rfl

end

/-- R11 to R13: how a walk ends that has visited the entries `v`. -/
def Bank.endOf (b : Bank) (v : List (Fin 128)) : WalkEnd :=
  if 4 < v.length then .overrun
  else
    match v.getLast? with
    | some i => if b.entries[i].chain = .stop then .decided v b.entries[i].profile else .unmatched
    | none => .unmatched

theorem Bank.endOf_continue {b : Bank} {v : List (Fin 128)} (hl : v.length ≤ 4)
    (hv : ∀ i ∈ v, b.entries[i].chain = .continue) : b.endOf v = .unmatched := by
  rw [Bank.endOf, if_neg (Nat.not_lt.mpr hl)]
  cases hlast : v.getLast? with
  | none => rfl
  | some i =>
    exact if_neg fun hstop => by cases hstop.symm.trans (hv i (List.mem_of_getLast? hlast))

theorem Chain.eq_stop_or_continue : ∀ c : Chain, c = .stop ∨ c = .continue
  | .stop => .inl rfl
  | .continue => .inr rfl

/-- The walk is the end of what it visits, whatever continuing entries came before. -/
theorem Bank.walkFrom_eq (b : Bank) (p : Port) (f : Frame) (l : List (Fin 128)) {path : List (Fin 128)}
    (hl : path.length ≤ 4) (hp : ∀ i ∈ path, b.entries[i].chain = .continue) :
    b.walkFrom p f l path = b.endOf (path ++ b.visitedFrom p f l) := by
  induction l generalizing path with
  | nil =>
    have hnil : b.visitedFrom p f [] = [] := rfl
    rw [hnil, List.append_nil, Bank.endOf_continue hl hp]
    rfl
  | cons i rest ih =>
    cases hm : b.entries[i].matches p f with
    | false => rw [Bank.walkFrom_skip hm, Bank.visitedFrom_skip hm, ih hl hp]
    | true =>
      by_cases hfull : 4 ≤ path.length
      · rw [Bank.walkFrom_overrun hm hfull, Bank.endOf, if_pos]
        rcases Chain.eq_stop_or_continue b.entries[i].chain with hc | hc
        · rw [Bank.visitedFrom_stop hm hc, List.length_append, List.length_singleton]; omega
        · rw [Bank.visitedFrom_continue hm hc, List.length_append, List.length_cons]; omega
      · rcases Chain.eq_stop_or_continue b.entries[i].chain with hc | hc
        · rw [Bank.walkFrom_stop hm hc (by omega), Bank.visitedFrom_stop hm hc, Bank.endOf, if_neg, List.getLast?_concat]
          · exact (if_pos hc).symm
          · rw [List.length_append, List.length_singleton]; omega
        · rw [Bank.walkFrom_continue hm hc (by omega), Bank.visitedFrom_continue hm hc, ih, List.append_assoc]
          · rfl
          · rw [List.length_append, List.length_singleton]; omega
          · intro j hj
            rcases List.mem_append.mp hj with hj | hj
            · exact hp j hj
            · rw [List.mem_singleton.mp hj, hc]

/-- R13: no entry before the last that is visited stops the walk. -/
theorem Bank.visitedFrom_last (b : Bank) (p : Port) (f : Frame) (l : List (Fin 128)) :
    (∀ i ∈ b.visitedFrom p f l, b.entries[i].chain = .continue) ∨
      ∃ i, (b.visitedFrom p f l).getLast? = some i ∧ b.entries[i].chain = .stop := by
  induction l with
  | nil => exact .inl fun i hi => by cases hi
  | cons i rest ih =>
    cases hm : b.entries[i].matches p f with
    | false => rw [Bank.visitedFrom_skip hm]; exact ih
    | true =>
      rcases Chain.eq_stop_or_continue b.entries[i].chain with hc | hc
      · exact .inr ⟨i, by rw [Bank.visitedFrom_stop hm hc]; rfl, hc⟩
      · rw [Bank.visitedFrom_continue hm hc]
        rcases ih with ih | ⟨j, hj, hstop⟩
        · exact .inl (List.forall_mem_cons.mpr ⟨hc, ih⟩)
        · exact .inr ⟨j, by rw [List.getLast?_cons, hj]; rfl, hstop⟩

/-- Settles O21: the walk is a function of the entries it visits, and only the last of these can stop it. -/
theorem walkFollowsTheEntries : Obligations.WalkFollowsTheEntries := by
  intro b p f
  have hwalk : b.walk p f = b.endOf (b.visited p f) :=
    b.walkFrom_eq p f (List.finRange 128) (path := []) (Nat.zero_le 4) fun i hi => by cases hi
  have hend := b.visitedFrom_last p f (List.finRange 128)
  rw [← Bank.visited_eq] at hend
  rw [hwalk]
  generalize b.visited p f = v at hend
  by_cases hlong : 4 < v.length
  · rw [Bank.endOf, if_pos hlong]
    exact ⟨iff_of_true rfl hlong, fun path profile => iff_of_false (by simp) fun h => Nat.not_lt.mpr h.1 hlong,
      iff_of_false (by simp) fun h => Nat.not_lt.mpr h.1 hlong⟩
  · have hshort := Nat.not_lt.mp hlong
    rcases hend with hall | ⟨i, hi, hstop⟩
    · rw [Bank.endOf_continue hshort hall]
      refine ⟨iff_of_false (by simp) hlong, fun path profile => iff_of_false (by simp) ?_, iff_of_true rfl ⟨hshort, hall⟩⟩
      rintro ⟨-, rfl, i, hi, hstop, -⟩
      cases hstop.symm.trans (hall i (List.mem_of_getLast? hi))
    · have hdecided : b.endOf v = .decided v b.entries[i].profile := by
        rw [Bank.endOf, if_neg hlong, hi]
        exact if_pos hstop
      rw [hdecided]
      refine ⟨iff_of_false (by simp) hlong, fun path profile => ?_, iff_of_false (by simp) fun h => ?_⟩
      · rw [WalkEnd.decided.injEq]
        refine ⟨fun h => ⟨hshort, h.1.symm, i, h.1 ▸ hi, hstop, h.2⟩, ?_⟩
        rintro ⟨-, rfl, j, hj, -, hprofile⟩
        cases hi.symm.trans hj
        exact ⟨rfl, hprofile⟩
      · cases hstop.symm.trans (h.2 i (List.mem_of_getLast? hi))

/-! ### A walked frame that is not taken (R12, R15 to R18, R21) -/

theorem exec_frameEnd_ended {dt : Nat} {p : Port} {f : Frame} {s : State} (h : s.EndsWalked dt p f) :
    (s.activeBank.walk p f = .overrun →
      exec (.frameEnd dt p) s = .next (s.frameDone dt p [.rxGood, .chainOverrun] .idle)) ∧
    (s.activeBank.walk p f = .unmatched →
      exec (.frameEnd dt p) s = .next (s.frameDone dt p [.rxGood, .notTaken] .idle)) := by
  rw [exec_frameEnd_walked h]
  unfold State.runWalk
  rw [State.raiseRx_activeBank]
  refine ⟨fun hw => ?_, fun hw => ?_⟩ <;>
    rw [show (s.elapse dt).activeBank.walk p f = _ from hw] <;>
    exact congrArg Host.Outcome.next (s.endSilent_frameDone dt p _)

/-- A decided walk is concluded by its profile. -/
theorem exec_frameEnd_decided {dt : Nat} {p : Port} {f : Frame} {s : State} {path : List (Fin 128)} {i : Fin 32}
    (h : s.EndsWalked dt p f) (hw : s.activeBank.walk p f = .decided path i) :
    exec (.frameEnd dt p) s =
      .next (((s.elapse dt).raiseRx p .rxGood).conclude p f path s.activeBank.profiles[i]) := by
  rw [exec_frameEnd_walked h]
  unfold State.runWalk
  rw [State.raiseRx_activeBank, show (s.elapse dt).activeBank.walk p f = _ from hw]
  rfl

/-- Settles O22: each of these ends raises one counter, and only DROP-REFUSE answers. -/
theorem walkLeavesTheFrame : Obligations.WalkLeavesTheFrame := by
  intro dt p f s h
  obtain ⟨hover, hun⟩ := exec_frameEnd_ended h
  refine ⟨hover, hun, fun path i hw => ⟨fun hd => ?_, fun hd => ?_⟩⟩
  all_goals
    rw [exec_frameEnd_decided h hw]
    refine congrArg Host.Outcome.next ?_
    simp only [State.conclude, hd]
  · exact s.endSilent_frameDone dt p _
  · exact s.oweUnicast_frameDone dt p _ f _

/-- A decided FORWARD goes on to the duplicate check. -/
theorem exec_frameEnd_forward {dt : Nat} {p : Port} {f : Frame} {s : State} {path : List (Fin 128)} {i : Fin 32}
    (h : s.EndsWalked dt p f) (hw : s.activeBank.walk p f = .decided path i)
    (hd : s.activeBank.profiles[i].disposition = .forward) :
    exec (.frameEnd dt p) s =
      .next (((s.elapse dt).raiseRx p .rxGood).forward p f path s.activeBank.profiles[i]) := by
  rw [exec_frameEnd_decided h hw, State.conclude, hd]

/-- R16, R100: a frame is a line duplicate when the filter holds a young record of its sequence. -/
theorem State.isDuplicate_iff (s : State) (p : Port) (f : Frame) :
    s.isDuplicate p f = true ↔ ∃ r, (s.port p).rx.filter[f.src.toNat]? = some (some r) ∧ r.seq = f.seq ∧
      s.now - r.time < (s.port p).params.dupWindow := by
  unfold State.isDuplicate
  cases (s.port p).rx.filter[f.src.toNat]? with
  | none => simp
  | some e => cases e <;> simp

theorem Frame.isBroadcast_iff (f : Frame) : f.isBroadcast = true ↔ f.dst = 255 := by simp [Frame.isBroadcast]

theorem rewriteFault_iff (own dst src : Byte) (t : FrameType) :
    rewriteFault own dst src t = true ↔ dst = own ∨ src = own ∨ (t ≠ .data ∧ dst = 255) := by
  simp [rewriteFault, or_assoc]

/-- Settles O23: the duplicate check comes first, and the fault check looks at the frame as rewritten. -/
theorem repeatOrRewriteFaultIsNotTaken : Obligations.RepeatOrRewriteFaultIsNotTaken := by
  intro dt p f s path i h hw hd
  rw [exec_frameEnd_forward h hw hd, State.forward]
  simp only [State.raiseRx_isDuplicate, State.raiseRx_inForce, State.raiseRx_activeBank]
  refine ⟨fun r hu hr hseq hyoung => ?_, fun hnot hfault => ?_⟩ <;> refine congrArg Host.Outcome.next ?_
  · have hdup : (s.elapse dt).isDuplicate p f = true := by
      rw [State.isDuplicate_iff]
      exact ⟨r, by rwa [State.elapse_port], hseq, by rwa [State.elapse_port]⟩
    have hcast : f.isBroadcast = false := by rw [← Bool.not_eq_true, Frame.isBroadcast_iff]; exact hu
    rw [if_pos ⟨hcast, hdup⟩]
    exact s.owe_frameDone dt p _ f _
  · rw [if_neg, if_pos]
    · exact s.oweUnicast_frameDone dt p _ f _
    · rw [rewriteFault_iff, State.elapse_port]
      exact hfault
    · rintro ⟨hcast, hdup⟩
      obtain ⟨r, hr, hseq, hyoung⟩ := (State.isDuplicate_iff ..).mp hdup
      rw [State.elapse_port] at hr hyoung
      rcases hnot with hb | hnot
      · exact absurd ((Frame.isBroadcast_iff f).mpr hb) (by rw [hcast]; decide)
      · rcases hnot r hr with hne | hold
        · exact hne hseq
        · exact Nat.not_lt.mpr hold hyoung

/-! ### A frame that is refused a slot (R20 to R23, R64) -/

/-- R23: the counter that a refused admission raises. -/
def Frame.noRoom (f : Frame) : List RxCounter := if f.dst = 255 then [.broadcastNoRoom] else []

/-- R23, R64: a frame presented for admission and refused. -/
theorem State.present_refused {s : State} {dt : Nat} {p : Port} {f : Frame} {path : List (Fin 128)} {q : Profile}
    (h : s.admitsData (q.egress.port p) = false) (choice : QueueChoice) (charged : Bool) :
    ((s.elapse dt).raiseRx p .rxGood).present p f path q choice charged =
        s.frameDone dt p ([.rxGood] ++ f.noRoom) (replyState f .busy) ∧
      (((s.elapse dt).raiseRx p .rxGood).raiseRx p .overBudget).present p f path q choice charged =
        s.frameDone dt p ([.rxGood, .overBudget] ++ f.noRoom) (replyState f .busy) := by
  have hadmit : (s.elapse dt).admitsData (q.egress.port p) = false := by
    rw [← h]
    cases q.egress.port p <;> rfl
  unfold State.present Frame.noRoom replyState Frame.isBroadcast
  simp only [State.raiseRx_admitsData, hadmit, Bool.false_eq_true, if_false, beq_iff_eq]
  by_cases hb : f.dst = 255
  · simp only [hb, if_true]
    refine ⟨s.endSilent_frameDone dt p _, ?_⟩
    cases p <;> simp [State.endSilent, State.raiseRx, State.modRx, State.modPort, State.frameDone, raiseAll]
  · simp only [hb, if_false]
    exact ⟨s.owe_frameDone_good dt p f _, s.owe_frameDone dt p _ f _⟩

/-- R64: the reasons to refuse a data-origin frame a slot. -/
theorem State.admitsData_false (s : State) (e : Port) :
    s.admitsData e = false ↔
      s.freeCount = 0 ∨ 30 ≤ s.dataCount ∨ (s.port e).inForce.queueLimit ≤ s.dataAt e := by
  have hfree := s.freeCount_pos
  rw [← Bool.not_eq_true, s.admitsData_iff]
  omega

/-- A decided FORWARD that is no duplicate and no rewrite fault meets the meter test. -/
theorem exec_frameEnd_policed {dt : Nat} {p : Port} {f : Frame} {s : State} {path : List (Fin 128)} {i : Fin 32}
    (h : s.EndsWalked dt p f) (hw : s.activeBank.walk p f = .decided path i)
    (hd : s.activeBank.profiles[i].disposition = .forward)
    (hdup : f.dst = 255 ∨ (s.elapse dt).isDuplicate p f = false)
    (hfault : rewriteFault (s.port (s.activeBank.profiles[i].egress.port p)).inForce.own (s.activeBank.newDst path f)
      (s.activeBank.newSrc path f) f.type = false) :
    exec (.frameEnd dt p) s =
      .next (((s.elapse dt).raiseRx p .rxGood).police p f path s.activeBank.profiles[i]) := by
  rw [exec_frameEnd_forward h hw hd, State.forward]
  simp only [State.raiseRx_isDuplicate, State.raiseRx_inForce, State.raiseRx_activeBank, State.elapse_port]
  rw [if_neg, if_neg]
  · rw [Bool.not_eq_true]
    exact hfault
  · rintro ⟨hcast, hdup'⟩
    rcases hdup with hb | hno
    · exact absurd ((Frame.isBroadcast_iff f).mpr hb) (by rw [hcast]; decide)
    · exact absurd (hdup'.symm.trans hno) (by decide)

/-- R20: a frame that does not conform finds a meter of its path short of the charge. -/
theorem State.conforms_false (s : State) (path : List (Fin 128)) (f : Frame) :
    s.conforms path f = false ↔
      ∃ k ∈ path, ∃ m, s.activeBank.entries[k].meter = some m ∧ s.meters[m].tokens < 7 + f.payload.length := by
  rw [← Bool.not_eq_true, s.conforms_iff]
  push Not
  rfl

theorem State.raised_conforms (s : State) (dt : Nat) (p : Port) (path : List (Fin 128)) (f : Frame) :
    ((s.elapse dt).raiseRx p .rxGood).conforms path f = s.conforms path f := by
  rw [State.raiseRx_conforms]
  rfl

/-- Settles O24: the policy of a frame over budget decides whether it is presented; what is presented and refused gets
BUSY or is counted. -/
theorem overBudgetOrRefusedFrameIsNotTaken : Obligations.OverBudgetOrRefusedFrameIsNotTaken := by
  intro dt p f s path i h hw hd hdup hfault refused noRoom
  have hadmit : refused → s.admitsData (s.activeBank.profiles[i].egress.port p) = false :=
    (s.admitsData_false _).mpr
  rw [exec_frameEnd_policed h hw hd hdup hfault]
  refine ⟨fun hshort => ⟨fun hp => ?_, fun hp => ?_, fun hp => ?_, fun hp hr => ?_⟩, fun hconf hr => ?_⟩ <;>
    refine congrArg Host.Outcome.next ?_
  all_goals rw [State.police, State.raised_conforms]
  case refine_5 =>
    rw [if_pos ((s.conforms_iff path f).mpr hconf)]
    exact (State.present_refused (hadmit hr) _ true).1
  all_goals
    rw [if_neg (by rw [(s.conforms_false path f).mpr hshort]; decide)]
    simp only [hp]
  · exact s.endSilent_frameDone dt p _
  · exact s.oweUnicast_frameDone dt p _ f _
  · exact s.oweUnicast_frameDone dt p _ f _
  · exact (State.present_refused (hadmit hr) .normal false).2

/-! ### A frame that is taken (R22, R23) -/

/-- R22: the receive path after a frame was taken. -/
def RxPath.taken (x : RxPath) (f : Frame) (now : Nat) : RxPath :=
  { x with
    state := replyState f .ack
    inWait := false
    filter := if f.dst = 255 then x.filter else x.filter.setIfInBounds f.src.toNat (some ⟨f.seq, now⟩)
    counters := raiseAt x.counters RxCounter.takenForward.index 1 }

/-- R3, R4, R22: what the taking of a frame changes: the meters, the active bank, the egress queue, the receive path. -/
theorem State.take_eq (s : State) (p : Port) (f : Frame) (path : List (Fin 128)) (q : Profile) (choice : QueueChoice)
    (charged : Bool) :
    s.take p f path q choice charged =
      (((if charged then s.chargeMeters path f else s).modBank s.active fun b => b.taken path).enqueue (q.egress.port p)
        choice (.data (s.takenSlot p f path q choice))).modPort p fun x => { x with rx := x.rx.taken f s.now } := by
  have hfilter : ∀ u : State, u.clock = s.clock → ∀ x : Slot,
      (((if f.isBroadcast then u else u.recordFilter p f).enqueue (q.egress.port p) choice x).raiseRx p
          .takenForward).oweUnicast p f .ack =
        (u.enqueue (q.egress.port p) choice x).modPort p fun x => { x with rx := x.rx.taken f s.now } := by
    intro u hu x
    have hnow : u.now = s.now := congrArg (· / 1000) hu
    unfold State.oweUnicast RxPath.taken replyState Frame.isBroadcast
    simp only [beq_iff_eq]
    by_cases hb : f.dst = 255
    · simp only [hb, if_true]
      cases p <;> cases q.egress <;> cases choice <;> rfl
    · simp only [hb, if_false, ← hnow]
      cases p <;> cases q.egress <;> cases choice <;> rfl
  unfold State.take
  refine hfilter _ ?_ _
  rw [State.modBank_clock]
  cases charged <;> rfl

/-- The state in which a frame has been taken but not yet queued: meters and active bank alone have moved. -/
def State.spent (s : State) (path : List (Fin 128)) (f : Frame) (charged : Bool) : State :=
  (if charged then s.chargeMeters path f else s).modBank s.active fun b => b.taken path

theorem State.spent_port (s : State) (path : List (Fin 128)) (f : Frame) (charged : Bool) (r : Port) :
    (s.spent path f charged).port r = s.port r := by
  unfold State.spent
  rw [State.modBank_port]
  cases charged <;> rfl

theorem State.spent_meters (s : State) (path : List (Fin 128)) (f : Frame) (charged : Bool) (m : Fin 16) :
    (s.spent path f charged).meters[m] =
      if charged = true ∧ ∃ k ∈ path, s.activeBank.entries[k].meter = some m then
        { s.meters[m] with tokens := s.meters[m].tokens - (7 + f.payload.length) }
      else s.meters[m] := by
  unfold State.spent
  rw [State.modBank_meters]
  cases charged with
  | false => simp
  | true =>
    simp only [if_true, State.chargeMeters, true_and, Bank.namesMeter_iff]
    simp [Frame.charge, Frame.lineLength, Config.frameOverhead]

theorem State.chargeMeters_bank (s : State) (path : List (Fin 128)) (f : Frame) (n : BankName) :
    (s.chargeMeters path f).bank n = s.bank n := by cases n <;> rfl

theorem State.spent_bank (s : State) (path : List (Fin 128)) (f : Frame) (charged : Bool) :
    (s.spent path f charged).bank s.active = s.activeBank.taken path ∧
      (s.spent path f charged).bank s.active.other = s.bank s.active.other := by
  unfold State.spent
  have hbank : ∀ n, (if charged then s.chargeMeters path f else s).bank n = s.bank n := by
    intro n
    split
    · exact s.chargeMeters_bank path f n
    · rfl
  rw [State.bank_modBank_same, State.bank_modBank_ne _ (BankName.other_ne _), hbank, hbank]
  exact ⟨rfl, rfl⟩

/-- R22: nothing but ports, meters and the active bank is moved by the taking of a frame. -/
theorem State.take_rest (s : State) (p : Port) (f : Frame) (path : List (Fin 128)) (q : Profile) (choice : QueueChoice)
    (charged : Bool) :
    let t := s.take p f path q choice charged
    t.clock = s.clock ∧ t.pins = s.pins ∧ t.active = s.active ∧ t.commitCount = s.commitCount ∧
      t.session = s.session ∧ t.fence = s.fence ∧ t.agentQueue = s.agentQueue ∧ t.managers = s.managers ∧
      t.restartPending = s.restartPending ∧ t.agentCounters = s.agentCounters ∧ t.pending = s.pending := by
  intro t
  have ht : t = _ := s.take_eq p f path q choice charged
  rw [ht]
  unfold State.enqueue
  cases charged <;> simp [State.chargeMeters]

/-- R22: the ports after the taking of a frame. -/
theorem State.take_ports (s : State) (p : Port) (f : Frame) (path : List (Fin 128)) (q : Profile) (choice : QueueChoice)
    (charged : Bool) :
    let t := s.take p f path q choice charged
    let e := q.egress.port p
    let slot : Slot := .data (s.takenSlot p f path q choice)
    (t.port e).urgent = (s.port e).urgent ++ (if choice = .urgent then [slot] else []) ∧
      (t.port e).normal = (s.port e).normal ++ (if choice = .normal then [slot] else []) ∧
      (t.port e.other).urgent = (s.port e.other).urgent ∧ (t.port e.other).normal = (s.port e.other).normal ∧
      (t.port p).rx = (s.port p).rx.taken f s.now ∧ (t.port p.other).rx = (s.port p.other).rx ∧
      ∀ r, (t.port r).tx = (s.port r).tx ∧ (t.port r).params = (s.port r).params ∧
        (t.port r).inForce = (s.port r).inForce ∧ (t.port r).staged = (s.port r).staged ∧
        (t.port r).idleSince = (s.port r).idleSince ∧ (t.port r).clash = (s.port r).clash := by
  intro t e slot
  have ht : t = ((s.spent path f charged).enqueue e choice slot).modPort p fun x => { x with rx := x.rx.taken f s.now } :=
    s.take_eq p f path q choice charged
  have hports := s.spent_port path f charged
  generalize s.spent path f charged = w at ht hports
  have hA : w.portA = s.portA := hports .A
  have hB : w.portB = s.portB := hports .B
  rw [ht]
  cases p <;> cases e <;> cases choice <;>
    simp [State.enqueue, State.modPort, State.port, Port.other, hA, hB] <;> intro r <;> cases r <;> simp

theorem State.take_bank (s : State) (p : Port) (f : Frame) (path : List (Fin 128)) (q : Profile) (choice : QueueChoice)
    (charged : Bool) (n : BankName) :
    (s.take p f path q choice charged).bank n = (s.spent path f charged).bank n := by
  rw [s.take_eq, State.modPort_bank, State.enqueue, State.modPort_bank]
  rfl

theorem State.take_meters (s : State) (p : Port) (f : Frame) (path : List (Fin 128)) (q : Profile)
    (choice : QueueChoice) (charged : Bool) :
    (s.take p f path q choice charged).meters = (s.spent path f charged).meters := by
  rw [s.take_eq, State.modPort_meters, State.enqueue, State.modPort_meters]
  rfl

/-- R3, R4: the active bank entry by entry. -/
theorem Bank.taken_entry (b : Bank) (path : List (Fin 128)) (k : Fin 128) :
    (b.taken path).hits[k] = (if k ∈ path then satAdd b.hits[k] 1 else b.hits[k]) ∧
      (b.taken path).entries[k] =
        (if k ∈ path ∧ b.entries[k].oneShot = .armed then { b.entries[k] with oneShot := .spent }
        else b.entries[k]) := by
  by_cases hk : k ∈ path <;> simp [Bank.taken, hk, RuleEntry.spend_eq]

/-- R22: a decided FORWARD that is granted its slot, after `cs` were raised on it, is taken. -/
theorem exec_frameEnd_taken {dt : Nat} {p : Port} {f : Frame} {s : State} {path : List (Fin 128)} {i : Fin 32}
    (h : s.EndsWalked dt p f) (hw : s.activeBank.walk p f = .decided path i)
    (hd : s.activeBank.profiles[i].disposition = .forward)
    (hdup : f.dst = 255 ∨ (s.elapse dt).isDuplicate p f = false)
    (hfault : rewriteFault (s.port (s.activeBank.profiles[i].egress.port p)).inForce.own (s.activeBank.newDst path f)
      (s.activeBank.newSrc path f) f.type = false)
    (hadmit : s.admitsData (s.activeBank.profiles[i].egress.port p) = true) :
    (s.conforms path f = true → exec (.frameEnd dt p) s =
      .next (((s.elapse dt).raiseRx p .rxGood).take p f path s.activeBank.profiles[i]
        (s.activeBank.profiles[i].queue.resolve f.urgent) true)) ∧
    (s.conforms path f = false → s.activeBank.profiles[i].policy = .demote → exec (.frameEnd dt p) s =
      .next ((((s.elapse dt).raiseRx p .rxGood).raiseRx p .overBudget).take p f path s.activeBank.profiles[i]
        .normal false)) := by
  have hadmit' : (s.elapse dt).admitsData (s.activeBank.profiles[i].egress.port p) = true := by
    rw [← hadmit]
    cases s.activeBank.profiles[i].egress.port p <;> rfl
  rw [exec_frameEnd_policed h hw hd hdup hfault, State.police, State.raised_conforms]
  refine ⟨fun hconf => ?_, fun hconf hp => ?_⟩ <;> refine congrArg Host.Outcome.next ?_
  · rw [if_pos hconf, State.present, State.raiseRx_admitsData, if_pos hadmit']
  · rw [if_neg (by rw [hconf]; decide)]
    simp only [hp]
    rw [State.present, State.raiseRx_admitsData, State.raiseRx_admitsData, if_pos hadmit']

/-- Receive counters of port `p` raised, each in turn. -/
def State.raisedRx (s : State) (p : Port) (cs : List RxCounter) : State :=
  s.modRx p fun x => { x with counters := raiseAll RxCounter.index cs x.counters }

/-- R19: the queue of a frame that conforms. -/
theorem QueueRule.resolve_eq (r : QueueRule) (urgent : Bool) :
    r.resolve urgent =
      match r with
      | .urgent => .urgent
      | .normal => .normal
      | .asReceived => if urgent then .urgent else .normal := by cases r <;> rfl

/-- Settles O25: conforming and demoted frames are taken alike, after their counters; the taking moves the meters, the
active bank, one queue and one receive path. -/
theorem takenFrame : Obligations.TakenFrame := by
  intro dt p f s path i demoted b q e choice dst src slot h hw hd hdup hfault hbudget h30 h32 hlimit
  have hdst : s.activeBank.newDst path f = dst := Bank.newDst_eq ..
  have hsrc : s.activeBank.newSrc path f = src := Bank.newSrc_eq ..
  have hadmit : s.admitsData e = true := (s.admitsData_iff e).mpr ⟨h32, h30, hlimit⟩
  obtain ⟨hconf, hdem⟩ := exec_frameEnd_taken h hw hd hdup (by rw [hdst, hsrc]; exact hfault) hadmit
  generalize hcs : (if demoted then [RxCounter.rxGood, .overBudget] else [.rxGood]) = cs
  have hexec : exec (.frameEnd dt p) s =
      .next (((s.elapse dt).raisedRx p cs).take p f path q choice (!demoted)) := by
    cases demoted with
    | false =>
      have hqueue : q.queue.resolve f.urgent = choice := QueueRule.resolve_eq ..
      have hraise : (s.elapse dt).raisedRx p cs = (s.elapse dt).raiseRx p .rxGood := by
        rw [← hcs]
        cases p <;> simp [State.raisedRx, State.raiseRx, State.modRx, State.modPort, raiseAll]
      rw [hraise, ← hqueue]
      exact hconf ((s.conforms_iff path f).mpr hbudget)
    | true =>
      have hraise : (s.elapse dt).raisedRx p cs = ((s.elapse dt).raiseRx p .rxGood).raiseRx p .overBudget := by
        rw [← hcs]
        cases p <;> simp [State.raisedRx, State.raiseRx, State.modRx, State.modPort, raiseAll]
      rw [hraise]
      exact hdem ((s.conforms_false path f).mpr hbudget.2) hbudget.1
  have hcounters : ∀ v, raiseAt (raiseAll RxCounter.index cs v) RxCounter.takenForward.index 1 =
      raiseAll RxCounter.index
        (if demoted then [.rxGood, .overBudget, .takenForward] else [.rxGood, .takenForward]) v := by
    intro v
    rw [← hcs]
    cases demoted <;>
      simp only [Bool.false_eq_true, if_false, if_true, raiseAll, List.foldl_cons, List.foldl_nil]
  generalize hu : (s.elapse dt).raisedRx p cs = u at hexec
  have hactive : u.active = s.active := by rw [← hu]; cases p <;> rfl
  have hbank : ∀ n, u.bank n = s.bank n := by rw [← hu]; intro n; cases p <;> cases n <;> rfl
  have hlive : u.activeBank = b := by rw [State.activeBank, hactive, hbank]; rfl
  have hmeters : u.meters = s.meters := by rw [← hu]; cases p <;> rfl
  have hslot : Slot.data (u.takenSlot p f path q choice) = slot := by
    have hnow : u.now = (s.clock + dt) / 1000 := by rw [← hu]; cases p <;> rfl
    have hcount : u.commitCount = s.commitCount := by rw [← hu]; cases p <;> rfl
    unfold State.takenSlot
    rw [hlive, hdst, hsrc, hnow, hcount]
  have hports : ∀ r, (u.port r).urgent = (s.port r).urgent ∧ (u.port r).normal = (s.port r).normal ∧
      (u.port r).tx = (s.port r).tx ∧ (u.port r).params = (s.port r).params ∧
      (u.port r).inForce = (s.port r).inForce ∧ (u.port r).staged = (s.port r).staged ∧
      (u.port r).idleSince = (s.port r).idleSince ∧ (u.port r).clash = (s.port r).clash := by
    rw [← hu]
    intro r
    cases p <;> cases r <;> exact ⟨rfl, rfl, rfl, rfl, rfl, rfl, rfl, rfl⟩
  have hrx : (u.port p).rx = { (s.port p).rx with counters := raiseAll RxCounter.index cs (s.port p).rx.counters } ∧
      (u.port p.other).rx = (s.port p.other).rx := by
    rw [← hu]
    cases p <;> exact ⟨rfl, rfl⟩
  have hrest : u.clock = s.clock + dt ∧ u.pins = s.pins ∧ u.commitCount = s.commitCount ∧ u.session = s.session ∧
      u.fence = s.fence ∧ u.agentQueue = s.agentQueue ∧ u.managers = s.managers ∧
      u.restartPending = s.restartPending ∧ u.agentCounters = s.agentCounters ∧ u.pending = s.pending := by
    rw [← hu]
    cases p <;> exact ⟨rfl, rfl, rfl, rfl, rfl, rfl, rfl, rfl, rfl, rfl⟩
  clear hu
  obtain ⟨hclock, hpins, hcount, hsession, hfence, hqueue, hmanagers, hpending, hagent, hcommands⟩ := hrest
  obtain ⟨tclock, tpins, tactive, tcount, tsession, tfence, tqueue, tmanagers, tpending, tagent, tcommands⟩ :=
    u.take_rest p f path q choice (!demoted)
  obtain ⟨turgent, tnormal, tourgent, tonormal, trx, torx, tports⟩ := u.take_ports p f path q choice (!demoted)
  have tlive : (u.take p f path q choice (!demoted)).activeBank = b.taken path := by
    rw [State.activeBank, tactive, State.take_bank, (u.spent_bank path f (!demoted)).1, hlive]
  refine ⟨_, hexec, fun m => ?meters, fun k => ?entries, ?profiles, ?standby, ?urgent, ?normal, ?otherUrgent,
    ?otherNormal, ?rx, ?otherRx, fun r => ?ports, tclock.trans hclock, tpins.trans hpins, tactive.trans hactive,
    tcount.trans hcount, tsession.trans hsession, tfence.trans hfence, tqueue.trans hqueue, tmanagers.trans hmanagers,
    tpending.trans hpending, tagent.trans hagent, tcommands.trans hcommands⟩
  case meters =>
    rw [State.take_meters, State.spent_meters, hlive, hmeters]
    simp only [Bool.not_eq_true']
  case entries => rw [tlive]; exact b.taken_entry path k
  case profiles => rw [tlive]; exact b.taken_profiles path
  case standby =>
    rw [State.standby, State.take_bank, ← hactive, (u.spent_bank path f (!demoted)).2, hbank]
  case urgent => rw [turgent, hslot, (hports _).1]
  case normal => rw [tnormal, hslot, (hports _).2.1]
  case otherUrgent => rw [tourgent, (hports _).1]
  case otherNormal => rw [tonormal, (hports _).2.1]
  case rx =>
    have hnow : u.now = (s.clock + dt) / 1000 := congrArg (· / 1000) hclock
    rw [trx, hrx.1, RxPath.taken, hnow]
    simp only [hcounters]
  case otherRx => rw [torx, hrx.2]
  case ports =>
    obtain ⟨-, -, htx, hparams, hin, hstaged, hidle, hclash⟩ := hports r
    obtain ⟨ttx, tparams, tin, tstaged, tidle, tclash⟩ := tports r
    exact ⟨ttx.trans htx, tparams.trans hparams, tin.trans hin, tstaged.trans hstaged, tidle.trans hidle,
      tclash.trans hclash⟩

end Sys2Proof.Machine
end

section
/-! PROOF. The frame end: screening, routing, the awaited reply and the intake (O32 to O36). -/

namespace Sys2Proof.Machine

/-! ### The tests of the screening (R96, R179) -/

theorem bitsOf_kind (kind : Byte) : bitsOf kind 5 3 = kind.toNat / 32 := by
  have := kind.isLt
  simp only [bitsOf, Nat.reducePow]
  omega

theorem bitsOf_class (cls : Byte) : bitsOf cls 3 5 ≠ 0 ↔ 8 ≤ cls.toNat := by
  have := cls.isLt
  simp only [bitsOf, Nat.reducePow]
  omega

theorem FrameType.ofCode_none {n : Nat} (h : n < 8) : FrameType.ofCode n = none ↔ n = 0 ∨ n = 7 := by
  interval_cases n <;> decide

/-- R78: what the format test asks of a type, by its code. -/
theorem FrameType.ofCode_facts {n : Nat} {t : FrameType} (h : FrameType.ofCode n = some t) :
    ¬(n = 0 ∨ n = 7) ∧ (t ≠ .data ↔ n ≠ 1) ∧ (t.isReply = true ↔ n = 3 ∨ n = 4 ∨ n = 5) := by
  rw [FrameType.ofCode_eq_some] at h
  subst h
  cases t <;> decide

/-- The five header bytes, the payload and the check of a whole frame, at the tests in their order. -/
theorem screen_frame {own dst src kind cls len : Byte} {payload : List Byte} {hi lo : Byte}
    (h : (dst :: src :: kind :: cls :: len :: payload ++ [hi, lo]).length ≤ 247) :
    let body := dst :: src :: kind :: cls :: len :: payload
    let b := body ++ [hi, lo]
    let t := kind.toNat / 32
    let misformed := t = 0 ∨ t = 7 ∨ 8 ≤ cls.toNat ∨ (dst = 255 ∧ t ≠ 1) ∨ ((t = 3 ∨ t = 4 ∨ t = 5) ∧ len ≠ 0)
    (checkBytes body ≠ [hi, lo] → screen own b b.length false = .failed .checkError) ∧
    (checkBytes body = [hi, lo] →
      (payload.length ≠ len.toNat ∨ 240 < len.toNat → screen own b b.length false = .failed .lengthError) ∧
      (payload.length = len.toNat → len.toNat ≤ 240 →
        (misformed → screen own b b.length false = .failed .formatError) ∧
        (¬misformed → src = 255 ∨ src = own → screen own b b.length false = .failed .addressConflict))) := by
  intro body b t misformed
  have hb : screen own b b.length false = screenBytes own b :=
    screen_shape (by simp only [b, body, List.length_append, List.length_cons]; omega) h
  have htests := screenBytes_frame own dst src kind cls len payload [hi, lo] rfl
  have hkind : bitsOf kind 5 3 = t := bitsOf_kind kind
  have ht : t < 8 := by have := kind.isLt; omega
  have hlen0 : len.toNat ≠ 0 ↔ len ≠ 0 := not_congr (BitVec.toNat_eq (y := (0 : Byte))).symm
  rw [hb, show screenBytes own b = _ from htests, hkind]
  refine ⟨fun hc => if_pos hc, fun hc => ?_⟩
  rw [if_neg (not_not_intro hc)]
  refine ⟨fun hl => if_pos hl, fun hl1 hl2 => ?_⟩
  rw [if_neg (by omega)]
  cases hcode : FrameType.ofCode t with
  | none =>
    refine ⟨fun _ => rfl, fun hfmt => absurd ((FrameType.ofCode_none ht).mp hcode) fun h07 => hfmt ?_⟩
    exact h07.imp_right .inl
  | some ty =>
    obtain ⟨h07, hdata, hreply⟩ := FrameType.ofCode_facts hcode
    have hfmt : (bitsOf cls 3 5 ≠ 0 ∨ (dst = 255 ∧ ty ≠ .data) ∨ (ty.isReply = true ∧ len.toNat ≠ 0)) ↔ misformed := by
      rw [bitsOf_class, hdata, hreply, hlen0]
      have h0 : t ≠ 0 := fun h0 => h07 (.inl h0)
      have h7 : t ≠ 7 := fun h7 => h07 (.inr h7)
      simp only [misformed, h0, h7, false_or]
    dsimp only
    rw [if_congr hfmt rfl rfl]
    exact ⟨fun hm => if_pos hm, fun hm hs => (if_neg hm).trans (if_pos hs)⟩

/-- A frame that fails its screening at a port that awaits no reply. -/
theorem State.endSilent_frameDone_one (s : State) (dt : Nat) (p : Port) (c : RxCounter) :
    ((s.elapse dt).raiseRx p c).endSilent p = s.frameDone dt p [c] .idle := by
  cases p <;> simp [State.endSilent, State.raiseRx, State.modRx, State.modPort, State.frameDone, raiseAll]

/-- A frame end at a port that awaits no reply handles what was assembled. -/
theorem exec_frameEnd_handled {s : State} {dt : Nat} {p : Port} (h : s.Ends dt p)
    (hw : (s.port p).tx.state.isAwaiting = false) :
    exec (.frameEnd dt p) s = .next ((s.elapse dt).handleFrame p (s.screened p)) := by
  rw [exec_frameEnd h, State.settleMark_of_notAwaiting (by simpa using hw), State.judgeFrame, if_neg]
  simp [State.decidesWait, hw]

/-- Settles O32: the tests in their order on the bytes of a whole frame; the failed one is counted and the frame
discarded. -/
theorem firstFailedTestIsCounted : Obligations.FirstFailedTestIsCounted := by
  refine ⟨fun own b n fault h => if_pos h, fun own dst src kind cls len payload hi lo => screen_frame,
    fun dt p c s h hc hw => ?_⟩
  rw [exec_frameEnd_handled h hw, hc]
  unfold State.handleFrame
  rw [State.elapse_port, if_pos h.1]
  exact congrArg Host.Outcome.next (s.endSilent_frameDone_one dt p c)

/-! ### Replies that are not awaited, and data to the own address (R97, R98) -/

/-- Settles O35: the routing of a good frame, by type and destination. -/
theorem strayRepliesAndOwnData : Obligations.StrayRepliesAndOwnData := by
  intro dt p f s h
  rw [exec_frameEnd_good h]
  unfold State.route State.isStray
  have hown : (((s.elapse dt).raiseRx p .rxGood).port p).inForce = (s.port p).inForce := by
    rw [State.raiseRx_inForce, State.elapse_port]
  have hlast : (((s.elapse dt).raiseRx p .rxGood).port p).rx.lastSent = (s.port p).rx.lastSent := by
    rw [State.raiseRx_rx, State.elapse_port]
  rw [hown, hlast]
  refine ⟨fun ht => ?reply, fun hd ht => ?data⟩
  case reply =>
    have hreply : f.type.isReply = true := by rcases ht with ht | ht | ht <;> rw [ht] <;> rfl
    rw [if_pos hreply]
    refine ⟨fun hs => ?_, fun hd hl => ?_⟩ <;> refine congrArg Host.Outcome.next ?_
    · rw [if_pos (by simpa using hs)]
      exact s.endSilent_frameDone dt p _
    · rw [if_neg (by simpa using ⟨hd, hl⟩)]
      exact s.endSilent_frameDone_one dt p _
  case data =>
    have hreply : f.type.isReply = false ∧ f.type ≠ .mgmt := by
      rcases ht with ht | ht <;> rw [ht] <;> exact ⟨rfl, by decide⟩
    rw [hreply.1, if_neg Bool.false_ne_true, if_pos hd, if_neg hreply.2]
    exact congrArg Host.Outcome.next (s.endSilent_frameDone dt p _)

/-! ### The intake (R100, R101) -/

theorem Frame.tag_eq (f : Frame) : f.tag = f.payload.head?.getD 0 := by
  unfold Frame.tag byteAt
  cases f.payload <;> rfl

/-- R100, step 2. -/
theorem State.repeatsPending_iff (s : State) (p : Port) (f : Frame) :
    s.repeatsPending p f = true ↔ ∃ e, s.manager p f.src = some e ∧ f.tag ≠ 0 ∧ e.pendingTag = some f.tag := by
  unfold State.repeatsPending
  cases s.manager p f.src <;> simp

theorem State.owe_frameDone_agent (s : State) (dt : Nat) (p : Port) (c : AgentCounter) (f : Frame) (t : ReplyType) :
    (((s.elapse dt).raiseRx p .rxGood).raiseAgent c).owe p f t =
      { s.frameDone dt p [.rxGood] (.oweReply ⟨t, f.src, f.dst, f.seq⟩) with
        agentCounters := raiseAll AgentCounter.index [c] s.agentCounters } := by
  cases p <;> simp [State.owe, State.raiseRx, State.raiseAgent, State.modRx, State.modPort, State.frameDone, raiseAll]

/-- R101: the pending tag of a request that is taken. -/
theorem State.setPending_eq (s : State) (p : Port) (f : Frame) :
    s.setPending p f =
      { s with
        managers := s.managers.map fun e =>
          if f.tag ≠ 0 ∧ e.port = p ∧ e.addr = f.src then { e with pendingTag := some f.tag } else e } := by
  unfold State.setPending
  by_cases h : f.tag = 0
  · simp [h]
  · rw [if_neg h]
    unfold State.modManager
    simp only [Manager.is_iff, ne_eq, h, not_false_eq_true, true_and]

/-- R65, R101: what the taking of a request leaves. -/
theorem State.takeRequest_eq (s : State) (dt : Nat) (p : Port) (f : Frame) :
    ((s.elapse dt).raiseRx p .rxGood).takeRequest p f =
      { (s.frameDone dt p [.rxGood, .takenAgent] (.oweReply ⟨.ack, f.src, f.dst, f.seq⟩)).modPort p fun x =>
          { x with rx := { x.rx with
              filter := x.rx.filter.setIfInBounds f.src.toNat (some ⟨f.seq, (s.clock + dt) / 1000⟩) } } with
        agentQueue := s.agentQueue ++
          [{ kind := .request, frame := f, port := p, requester := f.src, trigger := .none }]
        managers := s.managers.map fun e =>
          if f.tag ≠ 0 ∧ e.port = p ∧ e.addr = f.src then { e with pendingTag := some f.tag } else e } := by
  unfold State.takeRequest
  simp only [State.setPending_eq]
  cases p <;>
    simp [State.owe, State.raiseRx, State.recordFilter, State.modRx, State.modPort, State.frameDone, raiseAll, requestSlot,
      State.now, Config.microsPerMilli]

/-- Settles O36: the intake's steps in their order. -/
theorem intakeTakesRequests : Obligations.IntakeTakesRequests := by
  intro dt p f s h ht hd ack tag
  have htag : f.tag = tag := f.tag_eq
  have hroute : ((s.elapse dt).raiseRx p .rxGood).route p f = ((s.elapse dt).raiseRx p .rxGood).intake p f := by
    unfold State.route
    rw [ht, State.raiseRx_inForce, State.elapse_port, if_neg (by decide), if_pos hd, if_pos rfl]
  have hrepeats : ((s.elapse dt).raiseRx p .rxGood).repeatsPending p f = s.repeatsPending p f := by
    cases p <;> rfl
  have hadmits : ((s.elapse dt).raiseRx p .rxGood).admitsRequest = s.admitsRequest := by
    rw [State.raiseRx_admitsRequest]
    rfl
  rw [exec_frameEnd_good h, hroute]
  unfold State.intake
  rw [State.raiseRx_isDuplicate, hrepeats, hadmits]
  refine ⟨fun hdup => ?duplicate, fun hdup => ⟨fun e he h0 hp => ?pending, fun hno => ⟨fun hfull => ?full,
    fun h1 h2 h3 h4 => ?taken⟩⟩⟩ <;> refine congrArg Host.Outcome.next ?_
  case duplicate =>
    rw [if_pos hdup]
    exact s.owe_frameDone dt p _ f _
  case pending =>
    rw [hdup, if_neg Bool.false_ne_true, if_pos ((s.repeatsPending_iff p f).mpr ⟨e, he, htag ▸ h0, htag ▸ hp⟩)]
    exact s.owe_frameDone_agent dt p _ f _
  all_goals
    have hfresh : ¬s.repeatsPending p f = true := by
      rw [s.repeatsPending_iff]
      rintro ⟨e, he, h0, hp⟩
      rw [htag] at h0 hp
      exact (hno e he).elim h0 fun hne => hne hp
    rw [hdup, if_neg Bool.false_ne_true, if_neg hfresh]
  case full =>
    have hrefuse : ¬s.admitsRequest = true := by
      have := s.freeCount_pos
      rw [s.admitsRequest_iff]
      omega
    rw [if_neg hrefuse]
    exact s.owe_frameDone_agent dt p _ f _
  case taken =>
    rw [if_pos ((s.admitsRequest_iff).mpr ⟨h1, h2, h3, h4⟩), State.takeRequest_eq, htag]

/-! ### The awaited reply (R122 to R124) -/

/-- R122: a delivery frees the frame sent. -/
theorem State.endDelivered_ended {s : State} {p : Port} {x : Slot} (hp : (s.port p).tx.pos = some x)
    (ht : x.hasTrigger = false) : s.endDelivered p = s.ended p x (deliveredCounts (s.port p).tx.collisions) := by
  unfold State.endDelivered deliveredCounts
  dsimp only
  generalize hco : (s.port p).tx.collisions = co
  by_cases h0 : co = 0
  · subst h0
    refine State.endFreed_ended (by simpa using hp) ht ?_
    cases p <;> rfl
  · by_cases h1 : co = 1
    · subst h1
      refine State.endFreed_ended (by simpa using hp) ht ?_
      cases p <;> rfl
    · rw [if_neg h0, if_neg h1, if_neg h1, if_pos (by omega)]
      refine State.endFreed_ended (by simpa using hp) ht ?_
      cases p <;> rfl

/-- R123: a BUSY within the limit holds the frame. -/
theorem State.endBusy_holds {s : State} {p : Port} (h : (s.port p).tx.busies < (s.port p).params.busyLimit) :
    s.endBusy p = s.modPort p fun y =>
      { y with
        tx := { y.tx with
          state := .busyHold (s.now + y.params.busyHold)
          busies := y.tx.busies + 1
          counters := raiseAll TxCounter.index [.busyReceived] y.tx.counters } } := by
  unfold State.endBusy
  rw [if_neg (by omega)]
  cases p <;> rfl

/-- R123: a BUSY beyond the limit fails the frame. -/
theorem State.endBusy_failed {s : State} {p : Port} {x : Slot} (hp : (s.port p).tx.pos = some x)
    (ht : x.hasTrigger = false) (h : (s.port p).params.busyLimit ≤ (s.port p).tx.busies) :
    s.endBusy p = s.failed p x 5 (s.port p).tx.attempts [.busyReceived, .busyExhausted] := by
  unfold State.endBusy
  dsimp only
  rw [if_pos (by omega)]
  refine State.endFailed_failed .busyExhausted (by simpa using hp) ht (by simp) ?_
  cases p <;> rfl

/-- R124: a REFUSE fails the frame. -/
theorem State.endRefused_failed {s : State} {p : Port} {x : Slot} (hp : (s.port p).tx.pos = some x)
    (ht : x.hasTrigger = false) :
    s.endRefused p = s.failed p x 6 (s.port p).tx.attempts [.refusedReceived] := by
  unfold State.endRefused
  refine State.endFailed_failed .refused (by simpa using hp) ht (by simp) ?_
  cases p <;> rfl

/-- Settles O34: the awaited reply is counted and handed to the transmit path, which frees, holds or fails the frame. -/
theorem awaitedReplySettlesTheFrame : Obligations.AwaitedReplySettlesTheFrame := by
  intro dt p w x f s h hf hin hw hp hm ha u
  have hu : ((s.elapse dt).raiseRx p .rxGood).endSilent p = u := s.endSilent_frameDone_one dt p .rxGood
  have htx : (u.port p).tx = (s.port p).tx ∧ (u.port p).params = (s.port p).params ∧ u.now = (s.clock + dt) / 1000 := by
    cases p <;> exact ⟨rfl, rfl, rfl⟩
  obtain ⟨htx, hparams, hnow⟩ := htx
  have hpos : (u.port p).tx.pos = some x := by rw [htx]; exact hp
  have settles : ∀ r, f.type.reply = some r → exec (.frameEnd dt p) s = .next (u.settle p r) := fun r hr => by
    rw [exec_frameEnd_answer h hin hw hp hm hf ha hr, hu]
  refine ⟨fun ht htr => ?ack, fun ht hl => ?held, fun ht hl htr => ?exhausted, fun ht htr => ?refused⟩
  case ack =>
    rw [settles .ack (by rw [ht]; rfl), State.settle, State.endDelivered_ended hpos htr, htx]
    rfl
  case held =>
    rw [settles .busy (by rw [ht]; rfl), State.settle, State.endBusy_holds (by rw [htx, hparams]; exact hl), hnow]
  case exhausted =>
    rw [settles .busy (by rw [ht]; rfl), State.settle, State.endBusy_failed hpos htr (by rw [htx, hparams]; exact hl), htx]
  case refused =>
    rw [settles .refuse (by rw [ht]; rfl), State.settle, State.endRefused_failed hpos htr, htx]

end Sys2Proof.Machine
end

section
/-! PROOF. What the end of a frame leaves of the receive paths, and the one screening counter of a frame end (O33). -/

namespace Sys2Proof.Machine

/-! ### The transmit path's operations leave the receive paths (R70 to R73, R116 to R124) -/

theorem State.vacate_rx (s : State) (p r : Port) : ((s.vacate p).port r).rx = (s.port r).rx := by
  cases p <;> cases r <;> rfl

section
variable {s : State} {p : Port}

/-- The slot in port `p`'s position, if any, carries no restart trigger. -/
def State.Untriggered (s : State) (p : Port) : Prop := (s.port p).tx.pos.all (fun x => !x.hasTrigger) = true

theorem State.Untriggered.congr {t : State} (h : s.Untriggered p) (hp : (t.port p).tx.pos = (s.port p).tx.pos) :
    t.Untriggered p := by unfold State.Untriggered at h ⊢; rw [hp]; exact h

theorem State.endFreed_rx (h : s.Untriggered p) (r : Port) : ((s.endFreed p).port r).rx = (s.port r).rx := by
  unfold State.Untriggered at h
  cases hp : (s.port p).tx.pos with
  | none => rw [State.endFreed_none hp, State.vacate_rx]
  | some x =>
    cases x with
    | data d => rw [State.endFreed_data hp, State.reportFreed_rx, State.vacate_rx]
    | mgmt m =>
      have htrigger : m.trigger = .none := by simpa [hp, Slot.hasTrigger] using h
      rw [State.endFreed_mgmt hp, htrigger]
      exact s.vacate_rx p r

theorem State.endFailed_rx (h : s.Untriggered p) (f : Failure) (r : Port) :
    ((s.endFailed p f).port r).rx = (s.port r).rx := by
  rcases s.endFailed_cases p f with ⟨d, -, -, -, he⟩ | ⟨d, -, -, -, he⟩ | ⟨-, he⟩ <;> rw [he]
  · rw [State.raiseTx_rx, State.enqueue_rx, State.vacate_rx]
  · rw [State.reportFreed_rx, State.raiseTx_rx, State.vacate_rx]
  · exact State.endFreed_rx h r

theorem State.enterDefer_rx (r : Port) : ((s.enterDefer p).port r).rx = (s.port r).rx := by
  rcases s.enterDefer_cases p with ⟨-, -, he⟩ | ⟨-, he⟩ <;> rw [he]
  · cases p <;> cases r <;> rfl
  · rw [State.modTx_rx]

theorem State.retryCheck_rx (h : s.Untriggered p) (failed : Nat) (r : Port) :
    ((s.retryCheck p failed).port r).rx = (s.port r).rx := by
  rcases s.retryCheck_cases p failed with ⟨-, he⟩ | ⟨-, he⟩ <;> rw [he]
  · rw [State.endFailed_rx (h.congr (by rw [State.raiseTx_tx])), State.raiseTx_rx]
  · rcases s.enterBackoff_cases p failed with ⟨-, he⟩ | ⟨-, he⟩ <;> rw [he]
    · exact State.enterDefer_rx r
    · rw [State.modTx_rx]

theorem State.endNoReply_rx (h : s.Untriggered p) (r : Port) : ((s.endNoReply p).port r).rx = (s.port r).rx := by
  unfold State.endNoReply
  rw [State.retryCheck_rx (h.congr (by rw [State.modTx_tx, State.raiseTx_tx])), State.modTx_rx, State.raiseTx_rx]

theorem State.settle_rx (h : s.Untriggered p) (k : ReplyType) (r : Port) :
    ((s.settle p k).port r).rx = (s.port r).rx := by
  cases k with
  | ack =>
    unfold State.settle State.endDelivered
    dsimp only
    split
    · rw [State.endFreed_rx (h.congr (by simp))]
      simp
    · split <;> rw [State.endFreed_rx (h.congr (by simp))] <;> simp
  | busy =>
    unfold State.settle State.endBusy
    dsimp only
    split
    · rw [State.endFailed_rx (h.congr (by simp))]
      simp
    · simp
  | refuse =>
    unfold State.settle State.endRefused
    rw [State.endFailed_rx (h.congr (by simp)), State.raiseTx_rx]

end

/-! ### The screening counters (R96, R177) -/

/-- R96, R177: the counters of which a frame end raises exactly one. -/
def screeningCounters : List RxCounter := [.rxGood, .checkError, .lengthError, .formatError, .addressConflict]

/-- R177: the sum of the screening counters of a group. -/
def screeningTotal (v : Vector Count 18) : Nat := (screeningCounters.map fun c => v[c.index].toNat).sum

/-- Raising a counter that no screening counter is leaves the sum. -/
theorem screeningTotal_other (v : Vector Count 18) {c : RxCounter} (h : c ∉ screeningCounters) :
    screeningTotal (raiseAt v c.index 1) = screeningTotal v := by
  refine congrArg List.sum (List.map_congr_left fun k hk => ?_)
  rw [getElem_raiseAt, if_neg]
  intro hi
  refine h ?_
  have hck : c = k := by revert hi; cases c <;> cases k <;> decide
  rw [hck]
  exact hk

theorem screeningTotal_raise {v : Vector Count 18} {c : RxCounter} (h : c ∈ screeningCounters)
    (hv : v[c.index].toNat < 4294967295) : screeningTotal (raiseAt v c.index 1) = screeningTotal v + 1 := by
  have hraised : (satAdd v[c.index] 1).toNat = v[c.index].toNat + 1 := satAdd_below (Nat.succ_le_of_lt hv)
  unfold screeningTotal screeningCounters
  simp only [List.map_cons, List.map_nil, getElem_raiseAt, List.sum_cons, List.sum_nil]
  fin_cases h <;> simp [RxCounter.index] at hraised ⊢ <;> omega

/-- R177: the sum of the screening counters of port `p`. -/
def State.screening (s : State) (p : Port) : Nat := screeningTotal (s.port p).rx.counters

theorem State.screening_congr {s t : State} {p : Port} (h : (t.port p).rx.counters = (s.port p).rx.counters) :
    t.screening p = s.screening p := congrArg screeningTotal h

section
variable (s : State) (p : Port) (f : Frame)

theorem State.screening_raiseOther {c : RxCounter} (h : c ∉ screeningCounters) :
    (s.raiseRx p c).screening p = s.screening p := by
  unfold State.screening
  rw [State.raiseRx_rx]
  exact screeningTotal_other _ h

theorem State.screening_endSilent : (s.endSilent p).screening p = s.screening p :=
  State.screening_congr (by rw [State.endSilent, State.modRx_rx])

theorem State.screening_owe (t : ReplyType) : (s.owe p f t).screening p = s.screening p :=
  State.screening_congr (by rw [State.owe, State.modRx_rx])

theorem State.screening_oweUnicast (t : ReplyType) : (s.oweUnicast p f t).screening p = s.screening p := by
  unfold State.oweUnicast
  split
  · exact s.screening_endSilent p
  · exact s.screening_owe p f t

theorem State.screening_present (path : List (Fin 128)) (q : Profile) (choice : QueueChoice) (charged : Bool) :
    (s.present p f path q choice charged).screening p = s.screening p := by
  rcases s.present_cases p f path q choice charged with ⟨-, he⟩ | ⟨-, he⟩ <;> rw [he]
  · obtain ⟨-, -, -, -, hrx, -⟩ := s.take_ports p f path q choice charged
    unfold State.screening
    rw [hrx]
    exact screeningTotal_other _ (by decide)
  · split
    · rw [State.screening_endSilent, State.screening_raiseOther _ _ (by decide)]
    · rw [State.screening_owe]

theorem State.screening_runWalk : (s.runWalk p f).screening p = s.screening p := by
  rcases s.runWalk_cases p f with he | he | he | ⟨path, i, -, -, he⟩ <;> rw [he]
  · rw [State.screening_endSilent, State.screening_raiseOther _ _ (by decide)]
  · rw [State.screening_endSilent, State.screening_raiseOther _ _ (by decide)]
  · rw [State.screening_oweUnicast, State.screening_raiseOther _ _ (by decide)]
  · rcases s.forward_cases p f path s.activeBank.profiles[i] with he | he | he | he | he | he | he <;> rw [he]
    · rw [State.screening_owe, State.screening_raiseOther _ _ (by decide)]
    · rw [State.screening_oweUnicast, State.screening_raiseOther _ _ (by decide)]
    · exact s.screening_present ..
    · rw [State.screening_endSilent, State.screening_raiseOther _ _ (by decide)]
    · rw [State.screening_oweUnicast, State.screening_raiseOther _ _ (by decide)]
    · rw [State.screening_oweUnicast, State.screening_raiseOther _ _ (by decide)]
    · rw [State.screening_present, State.screening_raiseOther _ _ (by decide)]

theorem State.screening_intake : (s.intake p f).screening p = s.screening p := by
  rcases s.intake_cases p f with he | he | ⟨-, he⟩ | he <;> rw [he]
  · rw [State.screening_owe, State.screening_raiseOther _ _ (by decide)]
  · rw [State.screening_owe]
    exact State.screening_congr (by rw [State.raiseAgent_port])
  · unfold State.takeRequest
    rw [State.screening_owe, State.screening_raiseOther _ _ (by decide), State.setPending_eq]
    exact State.screening_congr (by cases p <;> rfl)
  · rw [State.screening_owe]
    exact State.screening_congr (by rw [State.raiseAgent_port])

/-- R97, R98: the routing of a good frame raises no screening counter. -/
theorem State.screening_route : (s.route p f).screening p = s.screening p := by
  unfold State.route
  split
  · rw [State.screening_endSilent]
    split
    · rw [State.screening_raiseOther _ _ (by decide)]
    · rfl
  · split
    · split
      · exact s.screening_intake p f
      · rw [State.screening_endSilent, State.screening_raiseOther _ _ (by decide)]
    · exact s.screening_runWalk p f

end

/-- R96: a failed test is one of the screening counters. -/
theorem screen_failed {own : Byte} {b : List Byte} {n : Nat} {fault : Bool} {c : RxCounter}
    (h : screen own b n fault = .failed c) : c ∈ screeningCounters := by
  unfold screen at h
  split at h
  · cases h; decide
  · unfold screenBytes at h
    dsimp only at h
    split at h
    · cases h; decide
    · split at h
      · cases h; decide
      · split at h
        · cases h; decide
        · split at h
          · cases h; decide
          · split at h
            · cases h; decide
            · cases h

/-- R96: the handling of a frame raises one screening counter, the failed test's or rx-good. -/
theorem State.screening_handleFrame {s : State} {p : Port} {v : Screened} (hr : (s.port p).rx.state = .receiving)
    (hv : ∀ c, v = .failed c → c ∈ screeningCounters) (hmax : ∀ c, (s.rxCount p c).toNat < 4294967295) :
    (s.handleFrame p v).screening p = s.screening p + 1 := by
  have hraise : ∀ c, c ∈ screeningCounters → (s.raiseRx p c).screening p = s.screening p + 1 := fun c hc => by
    unfold State.screening
    rw [State.raiseRx_rx]
    exact screeningTotal_raise hc (hmax c)
  unfold State.handleFrame
  rw [if_pos hr]
  cases v with
  | failed c => exact ((s.raiseRx p c).screening_endSilent p).trans (hraise c (hv c rfl))
  | good f => exact ((s.raiseRx p .rxGood).screening_route p f).trans (hraise .rxGood (by decide))

/-- A mark that has been settled leaves no trigger in the position either. -/
theorem State.settleMark_untriggered {s : State} {p : Port} (h : s.Untriggered p) : (s.settleMark p).Untriggered p := by
  rcases s.settleMark_cases p with he | ⟨-, d, -, he⟩ <;> rw [he]
  · exact h
  · have hnone : ((((s.raiseTx p .fenced).vacate p).reportFreed
        (decide (d.epoch ≠ s.commitCount))).port p).tx.pos = none := by
      rw [State.reportFreed_tx]
      cases p <;> rfl
    unfold State.Untriggered
    rw [hnone]
    rfl

/-- Settles O33: whatever the frame end does to the transmit path first leaves the receive path, and then one screening
counter is raised, by the frame's handling or for the awaited reply. -/
theorem frameEndRaisesOneScreeningCounter : Obligations.FrameEndRaisesOneScreeningCounter := by
  intro dt p s t total h hpos hmax hexec
  have htotal : ∀ x : State, total x = x.screening p := fun x => by
    simp only [total, State.screening, screeningTotal, screeningCounters, State.rxCount, List.map_cons, List.map_nil,
      List.sum_cons, List.sum_nil]
    omega
  rw [exec_frameEnd h] at hexec
  obtain rfl := Host.Outcome.next.inj hexec
  rw [htotal, htotal]
  have hpos' : (s.elapse dt).Untriggered p := by
    unfold State.Untriggered
    rw [State.elapse_port]
    exact hpos
  generalize hu : (s.elapse dt).settleMark p = u
  have hrx : (u.port p).rx = (s.port p).rx := by rw [← hu, State.settleMark_rx, State.elapse_port]
  have hu' : u.Untriggered p := by
    rw [← hu]
    exact State.settleMark_untriggered hpos'
  have hsame : u.screening p = s.screening p := State.screening_congr (by rw [hrx])
  have handled : ∀ w : State, (w.port p).rx = (s.port p).rx →
      (w.handleFrame p (s.screened p)).screening p = s.screening p + 1 := fun w hw => by
    have hscreen : w.screening p = s.screening p := State.screening_congr (by rw [hw])
    rw [← hscreen]
    refine State.screening_handleFrame (by rw [hw]; exact h.1) (fun c hc => screen_failed hc) fun c => ?_
    unfold State.rxCount
    rw [hw]
    exact hmax c
  rcases u.judgeFrame_cases p (s.screened p) with ⟨k, -, -, he⟩ | ⟨-, -, he⟩ | ⟨-, he⟩ <;> rw [he]
  · have hk : (((u.raiseRx p .rxGood).endSilent p).settle p k).screening p =
        ((u.raiseRx p .rxGood).endSilent p).screening p :=
      State.screening_congr (by rw [State.settle_rx (hu'.congr (by cases p <;> rfl))])
    rw [hk, State.screening_endSilent]
    unfold State.screening
    rw [State.raiseRx_rx, hrx]
    exact screeningTotal_raise (by decide) (hmax .rxGood)
  · exact handled _ (by rw [State.endNoReply_rx hu', hrx])
  · exact handled u hrx

end Sys2Proof.Machine
end

section
/-! PROOF. Selection, deferral, the waits and what the port drives (O38, O39). -/

namespace Sys2Proof.Machine

/-! ### Entering DEFER (R116, R117) -/

section
variable {s : State} {p : Port}

theorem State.gapOf_pos {x : Slot} (h : (s.port p).tx.pos = some x) :
    s.gapOf p = if x.frame.urgent then (s.port p).params.urgentGap else (s.port p).params.normalGap := by
  simp [State.gapOf, h]

/-- The path defers while its gap has not passed or the receive path is not IDLE. -/
theorem State.enterDefer_waits
    (h : s.clock - (s.port p).idleSince < s.gapOf p * s.bitTime p ∨ (s.port p).rx.state ≠ .idle) :
    s.enterDefer p = s.modTx p fun x => { x with state := .defer (s.gapOf p) s.now (s.port p).params.deferLimit } := by
  rcases s.enterDefer_cases p with ⟨hgap, hidle, -⟩ | ⟨-, he⟩
  · rcases h with h | h
    · exact absurd hgap (Nat.not_le.mpr h)
    · exact absurd hidle h
  · exact he

theorem State.enterDefer_sends (hgap : s.gapOf p * s.bitTime p ≤ s.clock - (s.port p).idleSince)
    (hidle : (s.port p).rx.state = .idle) :
    s.enterDefer p = s.modPort p fun x =>
      { x with clash := none, tx := { x.tx with state := .sending (s.port p).params.window s.clock } } := by
  rcases s.enterDefer_cases p with ⟨-, -, he⟩ | ⟨hno, -⟩
  · exact he
  · exact absurd ⟨hgap, hidle⟩ hno

/-- A port whose transmit path does not send and whose receive path is no reply does not drive. -/
theorem State.driverEnable_false (ht : (s.port p).tx.state.isSending = false)
    (hr : (s.port p).rx.state.isReplying = false) : s.driverEnable p = false := by
  rw [State.driverEnable, ht, hr]
  rfl

end

theorem Rate.bitTime_pos (r : Rate) : 0 < r.bitTime := by cases r <;> decide

theorem State.bitTime_pos (s : State) (p : Port) : 0 < s.bitTime p := Rate.bitTime_pos _

/-! ### Selection (R113 to R115) -/

/-- R113: the head of the two queues, taken apart. -/
theorem PortState.head_of {x : PortState} {h : Slot} {urgent normal : List Slot}
    (hq : x.urgent = h :: urgent ∧ x.normal = normal ∨ x.urgent = [] ∧ urgent = [] ∧ x.normal = h :: normal) :
    x.head = some (h, { x with urgent, normal }) := by
  rcases hq with ⟨hu, rfl⟩ | ⟨hu, rfl, hn⟩
  · simp [PortState.head, hu]
  · simp [PortState.head, hu, hn]

/-- R113, R114: what selection does with a head that is not too old, and with one that is. -/
theorem State.select_head {s : State} {p : Port} {h : Slot} {x : PortState} (ht : (s.port p).tx.state = .idle)
    (hr : (s.port p).rx.state = .idle ∨ (s.port p).rx.state = .receiving) (hh : (s.port p).head = some (h, x)) :
    s.select p =
      if s.isAged p h then ((s.takeUp p h x).raiseTx p .aged).endFailed p .aged
      else ((s.takeUp p h x).modTx p fun y => y.assignSeq h).enterDefer p := by
  have howes : (s.port p).rx.state.owesReply = false := by rcases hr with hr | hr <;> rw [hr] <;> rfl
  unfold State.select
  rw [if_pos ⟨ht, howes⟩, hh]

/-- R115: the transmit path of a slot that has been selected. -/
theorem TxPath.assignSeq_eq (x : TxPath) (h : Slot) :
    x.assignSeq h =
      { x with
        pos := some (h.withSeq (if h.frame.dst = 255 then 0 else (x.seqTable[h.frame.src.toNat]?).getD 0))
        seqTable := if h.frame.dst = 255 then x.seqTable
          else x.seqTable.setIfInBounds h.frame.src.toNat ((x.seqTable[h.frame.src.toNat]?).getD 0 + 1) } := by
  unfold TxPath.assignSeq Frame.isBroadcast
  simp only [beq_iff_eq]
  by_cases hd : h.frame.dst = 255
  · rw [if_pos hd, if_pos hd, if_pos hd]
  · rw [if_neg hd, if_neg hd, if_neg hd]

/-- R114: a slot that is not too old. -/
theorem State.isAged_false {s : State} {p : Port} {h : Slot}
    (hage : match h with
      | .data d => (s.port p).params.ageLimit = 0 ∨ s.now - d.arrival ≤ (s.port p).params.ageLimit
      | .mgmt _ => True) : s.isAged p h = false := by
  cases h with
  | data d =>
    simp only [State.isAged, Bool.and_eq_false_iff, decide_eq_false_iff_not]
    dsimp only at hage
    omega
  | mgmt m => rfl

/-- Settles O38: the head is taken up with its sequence, and defers or sends by its own gap. -/
theorem selectionTakesTheHead : Obligations.SelectionTakesTheHead := by
  intro dt p h urgent normal s gap seq idle taken ht hr hq hage
  have hselect : exec (.selection dt p) s = .next ((taken .select (s.port p).clash).enterDefer p) := by
    refine congrArg Host.Outcome.next ((State.select_head (s := s.elapse dt) (by simpa using ht) (by simpa using hr)
      (by simpa using PortState.head_of hq)).trans ?_)
    rw [if_neg]
    · simp only [State.takeUp, TxPath.assignSeq_eq, taken]
      cases p <;> rfl
    · rw [State.isAged_false]
      · decide
      · cases h with
        | data d => rw [State.elapse_port]; exact hage
        | mgmt m => trivial
  have hport : (taken .select (s.port p).clash).port p = _ := State.port_modPort_same ..
  have hgap : (taken .select (s.port p).clash).gapOf p = gap := by
    rw [State.gapOf_pos (x := h.withSeq (if h.frame.dst = 255 then 0 else seq)) (by rw [hport]),
      Slot.withSeq_urgent, hport, State.elapse_port]
  have hclock : (taken .select (s.port p).clash).clock = s.clock + dt := State.modPort_clock ..
  have hbit : (taken .select (s.port p).clash).bitTime p = s.bitTime p := by
    rw [State.bitTime, hport, State.elapse_port]
    rfl
  rw [hselect]
  refine ⟨fun hwait => ?_, fun hreach hrxi => ?_⟩ <;> refine congrArg Host.Outcome.next ?_
  · rw [State.enterDefer_waits, hgap, hport, State.elapse_port, State.now, hclock]
    · cases p <;> rfl
    · rw [hclock, hgap, hbit, hport, State.elapse_port]
      exact hwait.imp_right fun hw => by rw [hw]; decide
  · rw [State.enterDefer_sends, hport, State.elapse_port, hclock]
    · cases p <;> rfl
    · rw [hclock, hgap, hbit, hport, State.elapse_port]
      exact hreach
    · rw [hport, State.elapse_port]
      exact hrxi

/-! ### The bits of a send (R80, R118) -/

/-- A port that sends slot `x` drives its frame. -/
theorem State.driven_sending {s : State} {p : Port} {x : Slot} {w start : Nat}
    (ht : (s.port p).tx.state = .sending w start) (hp : (s.port p).tx.pos = some x) : s.driven p = x.frame.onLine := by
  unfold State.driven
  rw [ht, hp]
  cases x <;> rfl

theorem State.driveStart_sending {s : State} {p : Port} {w start : Nat} (ht : (s.port p).tx.state = .sending w start) :
    s.driveStart p = some start := by
  unfold State.driveStart
  rw [ht]

/-- R80, 12: `d` into a drive of which nothing was read back, the port sends the bit that falls on its clock. -/
theorem State.bit_driven {s : State} {p : Port} {start d : Nat} (hs : s.driveStart p = some start)
    (hc : (s.port p).clash = none) (hclock : s.clock = start + d) :
    (∀ v, (s.driven p)[d / s.bitTime p / 10]? = some v →
      s.idleTime p = 0 ∧
        s.txd p = (if d / s.bitTime p % 10 = 0 then .start else if d / s.bitTime p % 10 = 9 then .stop
          else .data (v.getLsbD (d / s.bitTime p % 10 - 1)))) ∧
      ((s.driven p).length * 10 ≤ d / s.bitTime p → s.txd p = .idle) := by
  have hpos := s.bitTime_pos p
  have hend : s.driveEnd p start = start + (s.driven p).length * 10 * s.bitTime p := by
    simp only [State.driveEnd, hc, Option.getD_none, State.byteEnd, Config.bitsPerByte]
  have hcmp : s.clock < s.driveEnd p start ↔ d / s.bitTime p < (s.driven p).length * 10 := by
    rw [hclock, hend, Nat.div_lt_iff_lt_mul hpos]
    omega
  unfold State.txd
  rw [hs]
  dsimp only
  refine ⟨fun v hv => ?_, fun hlong => if_neg (by rw [hcmp]; omega)⟩
  have hbyte : d / s.bitTime p / 10 < (s.driven p).length := by
    by_contra h
    rw [List.getElem?_eq_none (by omega)] at hv
    cases hv
  have hlt : s.clock < s.driveEnd p start := hcmp.mpr (by omega)
  refine ⟨?_, ?_⟩
  · rw [State.idleTime, State.lineEnd_on hs]
    omega
  · rw [if_pos hlt, hclock, Nat.add_sub_cancel_left, List.getD_eq_getElem?_getD, getElem?_lineBits _ _ _ hv,
      Option.getD_some]

/-! ### The ends of the waits (R116, R120, R123) -/

/-- A wait that ends with the path in DEFER or in the send, by idle time and receive path. -/
theorem State.enterDefer_ends {s : State} {p : Port} {x : Slot} (dt : Nat) (hp : (s.port p).tx.pos = some x) :
    let gap := if x.frame.urgent then (s.port p).params.urgentGap else (s.port p).params.normalGap
    let idle := s.clock + dt - (s.port p).idleSince
    (idle < gap * s.bitTime p ∨ (s.port p).rx.state ≠ .idle →
      (s.elapse dt).enterDefer p = (s.elapse dt).modPort p fun y =>
        { y with tx := { y.tx with state := .defer gap ((s.clock + dt) / 1000) y.params.deferLimit } }) ∧
    (gap * s.bitTime p ≤ idle → (s.port p).rx.state = .idle →
      (s.elapse dt).enterDefer p = (s.elapse dt).modPort p fun y =>
        { y with clash := none, tx := { y.tx with state := .sending y.params.window (s.clock + dt) } }) := by
  intro gap idle
  have hgap : (s.elapse dt).gapOf p = gap := by
    rw [State.gapOf_pos (x := x) (by rw [State.elapse_port]; exact hp), State.elapse_port]
  refine ⟨fun hw => ?_, fun hreach hidle => ?_⟩
  · rw [State.enterDefer_waits, hgap]
    · cases p <;> rfl
    · rw [hgap, State.elapse_port, State.elapse_bitTime]
      exact hw
  · rw [State.enterDefer_sends]
    · cases p <;> rfl
    · rw [hgap, State.elapse_port, State.elapse_bitTime]
      exact hreach
    · rw [State.elapse_port]
      exact hidle

theorem State.markedAt_pos {s : State} {p : Port} {x : Slot} (h : (s.port p).tx.pos = some x) :
    s.markedAt p = x.marked := by simp [State.markedAt, h]

/-- Settles O39: the ends of the two waits are one entry into DEFER; the gap begins the send, whose bits are those of the
frame on the line. -/
theorem waitsEndInDeferAndSending : Obligations.WaitsEndInDeferAndSending := by
  intro dt p x s gap idle waits deferred sending hp hm
  obtain ⟨hdefer, hsend⟩ := State.enterDefer_ends dt hp
  have hmark : (s.elapse dt).markedAt p = false := (State.markedAt_pos (by rw [State.elapse_port]; exact hp)).trans hm
  refine ⟨fun ends ht hend => ?backoff, fun ends ht hend => ?hold, fun g start limit ht hreach hrx => ?gap,
    fun hoff => ?off⟩
  case backoff =>
    have hexec : exec (.backoffEnd dt p) s = .next ((s.elapse dt).enterDefer p) := by
      refine congrArg Host.Outcome.next ?_
      unfold State.endBackoff
      rw [State.elapse_port, ht]
      exact if_pos ⟨hend, hmark⟩
    rw [hexec]
    exact ⟨fun hw => congrArg _ (hdefer hw), fun hreach hrx => congrArg _ (hsend hreach hrx)⟩
  case hold =>
    have hexec : exec (.busyHoldEnd dt p) s = .next ((s.elapse dt).enterDefer p) := by
      refine congrArg Host.Outcome.next ?_
      unfold State.endBusyHold
      rw [State.elapse_port, ht]
      exact if_pos ⟨hend, hmark⟩
    rw [hexec]
    exact ⟨fun hw => congrArg _ (hdefer hw), fun hreach hrx => congrArg _ (hsend hreach hrx)⟩
  case gap =>
    have hoff : s.driverEnable p = false := State.driverEnable_false (by rw [ht]; rfl) (by rw [hrx]; rfl)
    have hport : sending.port p = _ := State.port_modPort_same ..
    rw [State.elapse_port] at hport
    have hstate : (sending.port p).tx.state = .sending (s.port p).params.window (s.clock + dt) := by rw [hport]
    have hpos : (sending.port p).tx.pos = some x := by rw [hport]; exact hp
    have hdriven := State.driven_sending hstate hpos
    refine ⟨?_, ?_, hdriven, fun d => ?_⟩
    · refine congrArg Host.Outcome.next ?_
      unfold State.reachGap
      rw [State.elapse_port, ht]
      dsimp only
      rw [if_pos ⟨(s.elapse_idleReached dt g p).mpr (by rw [State.lineEnd_off hoff]; exact hreach), hrx, hmark⟩]
      rfl
    · rw [State.driverEnable, hstate]
      rfl
    · intro t bit
      have hbit : t.bitTime p = s.bitTime p := by
        rw [State.elapse_bitTime, State.bitTime, hport]
        rfl
      have htd : t.driven p = x.frame.onLine := (State.elapse_driven ..).trans hdriven
      have hbits := State.bit_driven (s := t) (p := p) (start := s.clock + dt) (d := d)
        (by rw [State.elapse_driveStart, State.driveStart_sending hstate]) (by rw [State.elapse_port, hport])
        (by rw [State.elapse_clock]; exact congrArg (· + d) (State.modPort_clock ..))
      rw [htd, hbit, Frame.onLine_length] at hbits
      exact hbits
  case off =>
    unfold State.txd
    rw [State.driveStart_none.mpr hoff]

end Sys2Proof.Machine
end

section
/-! PROOF. The ends of a send: completion, collision, missing replies, failures, abandon marks and the fence they may
end (O40 to O45). -/

namespace Sys2Proof.Machine

/-! ### The end of a drive (R81, R118) -/

/-- R118: a send whose last byte has been sent. -/
def State.sentTo (s : State) (p : Port) (x : Slot) (ended : Nat) : State :=
  s.modPort p fun y =>
    { y with
      idleSince := max y.idleSince ended
      clash := none
      rx := { y.rx with lastSent := some x.frame.src, holdOff := decide (ended ≤ y.idleSince) } }

theorem State.sentTo_eq (s : State) (p : Port) (x : Slot) (ended : Nat) :
    (s.driverOff p ended).modRx p (fun y => { y with lastSent := some x.frame.src }) = s.sentTo p x ended := by
  cases p <;> rfl

/-- R118: a send in which a collision has shown is not completed (log entry 6). -/
theorem exec_sendComplete_clash {s : State} {dt : Nat} {p : Port} {w start : Nat} {x : Slot}
    (ht : (s.port p).tx.state = .sending w start) (hp : (s.port p).tx.pos = some x) (hc : (s.port p).clash ≠ none) :
    exec (.sendComplete dt p) s = .next (s.elapse dt) := by
  refine congrArg Host.Outcome.next ?_
  unfold State.completeSend
  rw [State.elapse_port, ht, hp]
  exact if_neg fun h => hc h.1

/-- R118: a broadcast that is sent to its end is freed. -/
theorem State.sendDone_broadcast {s : State} {p : Port} {x : Slot} (hp : (s.port p).tx.pos = some x)
    (hm : x.marked = false) (hd : x.frame.dst = 255) (ht : x.hasTrigger = false) (ended : Nat) :
    s.sendDone p x ended = (s.sentTo p x ended).ended p x [.broadcastSent] := by
  unfold State.sendDone
  rw [State.sentTo_eq, hm]
  dsimp only
  rw [if_neg Bool.false_ne_true, if_pos ((Frame.isBroadcast_iff _).mpr hd)]
  refine State.endFreed_ended (x := x) ?_ ht ?_
  · cases p <;> exact hp
  · cases p <;> rfl

/-- Settles O40: a unicast frame waits, a broadcast is freed, and a collision that has shown leaves the send alone. -/
theorem sendCompletes : Obligations.SendCompletes := by
  intro dt p w start x s ht hp hm ended done
  refine ⟨fun hc hend => ?_, exec_sendComplete_clash ht hp⟩
  rw [exec_sendComplete ht hp hc hend]
  refine ⟨fun hd => ?_, fun hd htr => ?_⟩ <;> refine congrArg Host.Outcome.next ?_
  · unfold State.sendDone
    rw [State.sentTo_eq, hm]
    dsimp only
    rw [if_neg Bool.false_ne_true, if_neg fun h => hd ((Frame.isBroadcast_iff _).mp h)]
    cases p <;> rfl
  · exact State.sendDone_broadcast (by rw [State.elapse_port]; exact hp) hm hd htr ended

/-! ### Retries (R119, R120) -/

/-- R119, R120: an attempt that has failed, while attempts are left: the backoff, or what one of 0 ends in. -/
theorem State.retryCheck_left {s : State} {p : Port} {x : Slot} (hp : (s.port p).tx.pos = some x)
    (hleft : (s.port p).tx.attempts < (s.port p).params.retryLimit + 1) (began : Nat) :
    let gap := if x.frame.urgent then (s.port p).params.urgentGap else (s.port p).params.normalGap
    let wait := (((s.port p).params.ladder.toList.getD (min (s.port p).tx.attempts 8 - 1) 0).toNat +
      (s.port p).inForce.own.toNat % 8) * 16
    let idle := s.clock - (s.port p).idleSince
    (0 < wait → s.retryCheck p began =
      s.modPort p fun y => { y with tx := { y.tx with state := .backoff (began + wait * s.bitTime p) } }) ∧
    (wait = 0 → idle < gap * s.bitTime p ∨ (s.port p).rx.state ≠ .idle → s.retryCheck p began =
      s.modPort p fun y =>
        { y with tx := { y.tx with state := .defer gap (s.clock / 1000) (s.port p).params.deferLimit } }) ∧
    (wait = 0 → gap * s.bitTime p ≤ idle → (s.port p).rx.state = .idle → s.retryCheck p began =
      s.modPort p fun y =>
        { y with clash := none, tx := { y.tx with state := .sending (s.port p).params.window s.clock } }) := by
  intro gap wait idle
  have hgap : s.gapOf p = gap := State.gapOf_pos hp
  have hback : s.retryCheck p began = s.enterBackoff p began := by
    rcases s.retryCheck_cases p began with ⟨h, -⟩ | ⟨-, he⟩
    · exact absurd hleft (Nat.not_lt.mpr h)
    · exact he
  have hcases := s.enterBackoff_cases p began
  have hwait : (s.port p).backoffBits (s.port p).tx.attempts = wait := rfl
  rw [hwait] at hcases
  rw [hback]
  have hzero : wait = 0 → s.enterBackoff p began = s.enterDefer p := fun h => by
    rcases hcases with ⟨-, he⟩ | ⟨h', -⟩
    · exact he
    · exact absurd h h'.ne'
  refine ⟨fun h => ?_, fun h hw => ?_, fun h hreach hidle => ?_⟩
  · rcases hcases with ⟨h', -⟩ | ⟨-, he⟩
    · exact absurd h' h.ne'
    · exact he
  · rw [hzero h, State.enterDefer_waits (by rw [hgap]; exact hw), hgap]
    rfl
  · rw [hzero h, State.enterDefer_sends (by rw [hgap]; exact hreach) hidle]

/-- R119: an attempt that has failed with none left fails the frame. -/
theorem State.retryCheck_failed {s u : State} {p : Port} {x : Slot} {cs : List TxCounter}
    (hp : (s.port p).tx.pos = some x) (htr : x.hasTrigger = false)
    (hno : (s.port p).params.retryLimit + 1 ≤ (s.port p).tx.attempts) (began : Nat)
    (hv : (s.raiseTx p .retryExhausted).vacate p = u.modPort p fun y => { y with tx := y.tx.ended cs }) :
    s.retryCheck p began = u.failed p x 3 (s.port p).tx.attempts cs := by
  unfold State.retryCheck
  rw [if_pos hno]
  exact State.endFailed_failed .retryExhausted (by rw [State.raiseTx_tx]; exact hp) htr (by rw [State.raiseTx_tx]) hv

/-! ### Collisions (R118) -/

/-- R118: a frame whose ordinary collision has been counted. -/
theorem State.countCollision_port (s : State) (p : Port) :
    (s.countCollision p).port p =
      { s.port p with
        tx := { (s.port p).tx with
          attempts := (s.port p).tx.attempts + 1
          collisions := (s.port p).tx.collisions + 1
          counters := raiseAll TxCounter.index [.collisions] (s.port p).tx.counters } } := by
  cases p <;> rfl

/-- Settles O41: the driver goes off, and an ordinary collision is counted and retried or fails, a late one fails. -/
theorem collisionBacksOffOrEnds : Obligations.CollisionBacksOffOrEnds := by
  intro dt p k w start x s ht hp hm ended hc hend n gap wait idle off retried
  rw [exec_collision ht hp hc hend]
  have hoff : (s.elapse dt).driverOff p ended = off := rfl
  have hoffp : off.port p = _ := State.port_modPort_same ..
  rw [State.elapse_port] at hoffp
  have hcount := off.countCollision_port p
  rw [hoffp] at hcount
  have hclock : (off.countCollision p).clock = s.clock + dt := by cases p <;> rfl
  have hbit : (off.countCollision p).bitTime p = s.bitTime p := by
    rw [State.bitTime, hcount]
    rfl
  have hwithin : k ≤ w → (s.elapse dt).collided p x w k ended = (off.countCollision p).retryCheck p ended := fun hk => by
    unfold State.collided
    rw [hoff, if_pos hk, hm]
    rfl
  refine ⟨fun hk hleft => ?left, fun hk hno htr => ?none, fun hk htr => ?late⟩
  case left =>
    have hret := State.retryCheck_left (s := off.countCollision p) (p := p) (x := x) (by rw [hcount]; exact hp)
      (by rw [hcount]; exact hleft) ended
    rw [hcount, hclock, hbit] at hret
    obtain ⟨hback, hdefer, hsend⟩ := hret
    have hstate : ∀ st : TxState, ((off.countCollision p).modPort p fun y => { y with tx := { y.tx with state := st } }) =
        retried st := fun st => by cases p <;> rfl
    rw [show start + k * 10 * s.bitTime p = ended from rfl, hwithin hk]
    refine ⟨fun hw => ?_, fun hw hi => ?_, fun hw hi hr => ?_⟩ <;> refine congrArg Host.Outcome.next ?_
    · exact (hback hw).trans (hstate _)
    · exact (hdefer hw hi).trans (hstate _)
    · refine (hsend hw hi hr).trans ?_
      cases p <;> rfl
  case none =>
    rw [show start + k * 10 * s.bitTime p = ended from rfl, hwithin hk]
    refine congrArg Host.Outcome.next ?_
    rw [State.retryCheck_failed (x := x) (u := off) (cs := [.collisions, .retryExhausted]) _ htr _ ended, hcount]
    · cases p <;> rfl
    · rw [hcount]
      exact hp
    · rw [hcount]
      exact hno
  case late =>
    rw [show start + k * 10 * s.bitTime p = ended from rfl]
    refine congrArg Host.Outcome.next ?_
    unfold State.collided
    rw [hoff, if_neg (Nat.not_le.mpr hk), hm]
    dsimp only
    rw [if_neg Bool.false_ne_true]
    refine State.endFailed_failed .lateCollision (x := x) ?_ htr ?_ ?_
    · cases p <;> exact hp
    · cases p <;> rfl
    · cases p <;> rfl

/-! ### What a failure leaves of the ports (R70 to R73) -/

theorem State.slotFreed_sameButNormal (s : State) (x : Slot) (r : Port) :
    (s.port r).SameButNormal ((s.slotFreed x).port r) := by
  cases x with
  | data d =>
    rw [← State.reportFreed_eq]
    exact s.reportFreed_sameButNormal _ r
  | mgmt m =>
    have hnone : s.slotFreed (.mgmt m) = s := by
      unfold State.slotFreed
      cases s.fence <;> rfl
    rw [hnone]
    rfl

/-- R125: whatever a failure makes of the slot, port `p` has ended its frame, but for its normal queue. -/
theorem State.failed_port (s : State) (p : Port) (x : Slot) (reason : Byte) (attempts : Nat) (cs : List TxCounter) :
    ∃ ks, ({ s.port p with tx := (s.port p).tx.ended ks } : PortState).SameButNormal
      ((s.failed p x reason attempts cs).port p) := by
  have hended : ∀ ks, ({ s.port p with tx := (s.port p).tx.ended ks } : PortState).SameButNormal
      ((s.ended p x ks).port p) := fun ks => by
    have h := (s.modPort p fun y => { y with tx := y.tx.ended ks }).slotFreed_sameButNormal x p
    rw [State.port_modPort_same] at h
    exact h
  unfold State.failed
  cases x with
  | mgmt m => exact ⟨_, hended _⟩
  | data d =>
    dsimp only
    split
    · split
      · refine ⟨cs ++ [.noticesMade], ?_⟩
        cases p <;> cases d.ingress <;> rfl
      · exact ⟨_, hended _⟩
    · exact ⟨_, hended _⟩

theorem State.slotFreed_clock (s : State) (x : Slot) : (s.slotFreed x).clock = s.clock := by
  unfold State.slotFreed
  split
  · split
    · exact State.modPort_clock ..
    · rfl
  · rfl

theorem State.failed_clock (s : State) (p : Port) (x : Slot) (reason : Byte) (attempts : Nat) (cs : List TxCounter) :
    (s.failed p x reason attempts cs).clock = s.clock := by
  have hended : ∀ ks, (s.ended p x ks).clock = s.clock := fun ks =>
    (State.slotFreed_clock ..).trans (State.modPort_clock ..)
  unfold State.failed
  cases x with
  | mgmt m => exact hended _
  | data d =>
    dsimp only
    split
    · split
      · rw [State.modPort_clock, State.modPort_clock]
      · exact hended _
    · exact hended _

/-! ### The reply wait ends NO-REPLY (R99, R124) -/

/-- R124: a frame whose missing reply has been counted. -/
def State.noReplyCounted (s : State) (p : Port) : State :=
  (s.raiseTx p .noReply).modTx p fun x => { x with attempts := x.attempts + 1 }

theorem State.noReplyCounted_port (s : State) (p : Port) :
    (s.noReplyCounted p).port p =
      { s.port p with
        tx := { (s.port p).tx with
          attempts := (s.port p).tx.attempts + 1
          counters := raiseAll TxCounter.index [.noReply] (s.port p).tx.counters } } := by
  cases p <;> rfl

theorem State.endNoReply_eq (s : State) (p : Port) : s.endNoReply p = (s.noReplyCounted p).retryCheck p s.clock := rfl

/-- R99: the frame that ended a reply wait without answering it is handled as it would be with the wait over. -/
theorem exec_frameEnd_after {s v : State} {dt : Nat} {p : Port} (h : s.Ends dt p)
    (hclock : v.clock = s.clock + dt) (hrx : (v.port p).rx = (s.port p).rx)
    (hin : (v.port p).inForce = (s.port p).inForce) (hidle : (v.port p).idleSince = (s.port p).idleSince)
    (ht : (v.port p).tx.state.isSending = false ∧ (v.port p).tx.state.isAwaiting = false) :
    exec (.frameEnd 0 p) v = .next (v.handleFrame p (s.screened p)) := by
  have hoff : v.driverEnable p = false := State.driverEnable_false ht.1 (by rw [hrx, h.1]; rfl)
  have hbit : v.bitTime p = s.bitTime p := by rw [State.bitTime, hin]; rfl
  have hends : v.Ends 0 p := by
    refine ⟨by rw [hrx]; exact h.1, ?_⟩
    have hline : (s.port p).idleSince ≤ s.lineEnd p := s.idleSince_le_lineEnd p
    have := h.2
    rw [State.lineEnd_off hoff, hidle, hclock, hbit]
    omega
  have hscreen : v.screened p = s.screened p := by unfold State.screened; rw [hrx, hin]
  rw [exec_frameEnd_handled hends ht.2, hscreen]
  rfl

/-- R98, R99: a frame that ends a reply wait without answering it. -/
theorem exec_frameEnd_noReply {s : State} {dt w : Nat} {p : Port} {x : Slot} (h : s.Ends dt p)
    (hin : (s.port p).rx.inWait = true) (ht : (s.port p).tx.state = .awaitReply w)
    (hp : (s.port p).tx.pos = some x) (hm : x.marked = false) (hno : ∀ f, s.screened p = .good f → ¬f.Answers x.frame) :
    exec (.frameEnd dt p) s = .next (((s.elapse dt).endNoReply p).handleFrame p (s.screened p)) := by
  have hpos : ((s.elapse dt).port p).tx.pos = some x := by rw [State.elapse_port]; exact hp
  have hdecides : (s.elapse dt).decidesWait p = true := by simp [State.decidesWait, hin, ht, TxState.isAwaiting]
  rw [exec_frameEnd h, State.settleMark_of_unmarked ((State.markedAt_pos hpos).trans hm), State.judgeFrame,
    if_pos hdecides, State.awaited_other hpos hno]

/-- R124: NO_REPLY, idle time having reached the wait with the receive path in IDLE. -/
theorem exec_noReply {s : State} {dt w : Nat} {p : Port} {x : Slot} (ht : (s.port p).tx.state = .awaitReply w)
    (hp : (s.port p).tx.pos = some x) (hm : x.marked = false) (hw : w * s.bitTime p ≤ s.clock + dt - (s.port p).idleSince)
    (hr : (s.port p).rx.state = .idle) : exec (.noReply dt p) s = .next ((s.elapse dt).endNoReply p) := by
  have hoff : s.driverEnable p = false := State.driverEnable_false (by rw [ht]; rfl) (by rw [hr]; rfl)
  have hpos : ((s.elapse dt).port p).tx.pos = some x := by rw [State.elapse_port]; exact hp
  refine congrArg Host.Outcome.next ?_
  unfold State.exhaustWait
  rw [State.elapse_port, ht]
  dsimp only
  rw [if_pos ⟨(s.elapse_idleReached dt w p).mpr (by rw [State.lineEnd_off hoff]; exact hw),
    fun h => (nomatch hr.symm.trans h.1), (State.markedAt_pos hpos).trans hm⟩]

/-- Settles O42: NO-REPLY is one retry check, at the end of the wait or before the frame that ended it is handled. -/
theorem noReplyIsRetried : Obligations.NoReplyIsRetried := by
  intro dt p w x s ht hp hm n gap idle wait retried backoff defer exhausted left
  have hcount := (s.elapse dt).noReplyCounted_port p
  rw [State.elapse_port] at hcount
  have hclock : ((s.elapse dt).noReplyCounted p).clock = s.clock + dt := by cases p <;> rfl
  have hbit : ((s.elapse dt).noReplyCounted p).bitTime p = s.bitTime p := by
    rw [State.bitTime, hcount]
    rfl
  have hret := fun hleft => State.retryCheck_left (s := (s.elapse dt).noReplyCounted p) (p := p) (x := x)
    (by rw [hcount]; exact hp) (by rw [hcount]; exact hleft) (s.clock + dt)
  rw [hcount, hclock, hbit] at hret
  have hstate : ∀ st : TxState,
      (((s.elapse dt).noReplyCounted p).modPort p fun y => { y with tx := { y.tx with state := st } }) =
        (s.elapse dt).modPort p (retried st) := fun st => by cases p <;> rfl
  have hback : left → 0 < wait → (s.elapse dt).endNoReply p = (s.elapse dt).modPort p (retried backoff) :=
    fun hl hw => ((hret hl).1 hw).trans (hstate _)
  have hdefer : left → wait = 0 → idle < gap * s.bitTime p ∨ (s.port p).rx.state ≠ .idle →
      (s.elapse dt).endNoReply p = (s.elapse dt).modPort p (retried defer) :=
    fun hl hw hi => ((hret hl).2.1 hw hi).trans (hstate _)
  have hfail : ¬left → x.hasTrigger = false → (s.elapse dt).endNoReply p = exhausted := fun hl htr => by
    rw [State.endNoReply_eq, State.retryCheck_failed (x := x) (u := s.elapse dt) (cs := [.noReply, .retryExhausted]) _ htr
      _ _, hcount]
    · cases p <;> rfl
    · rw [hcount]
      exact hp
    · rw [hcount]
      exact Nat.not_lt.mp hl
  refine ⟨fun hw hr => ?wait, fun h hin hno => ?frame⟩
  case wait =>
    rw [exec_noReply ht hp hm hw hr]
    refine ⟨fun hl h0 => congrArg _ (hback hl h0), fun hl h0 hi => congrArg _ (hdefer hl h0 (.inl hi)),
      fun hl h0 hi => ?_, fun hl htr => congrArg _ (hfail hl htr)⟩
    refine congrArg Host.Outcome.next (((hret hl).2.2 h0 hi hr).trans ?_)
    cases p <;> rfl
  case frame =>
    rw [exec_frameEnd_noReply h hin ht hp hm hno]
    have after : ∀ st : TxState, st.isSending = false ∧ st.isAwaiting = false →
        exec (.frameEnd 0 p) ((s.elapse dt).modPort p (retried st)) =
          .next (((s.elapse dt).modPort p (retried st)).handleFrame p (s.screened p)) := fun st hst =>
      exec_frameEnd_after h (State.modPort_clock ..) (by cases p <;> rfl) (by cases p <;> rfl) (by cases p <;> rfl)
        (by rw [State.port_modPort_same]; exact hst)
    refine ⟨fun hl h0 => ⟨?_, fun c hc => ?_⟩, fun hl h0 => ?_, fun hl htr => ?_⟩
    · rw [hback hl h0, after backoff ⟨rfl, rfl⟩]
    · rw [hback hl h0, hc]
      refine congrArg Host.Outcome.next ?_
      unfold State.handleFrame
      rw [if_pos (by rw [State.port_modPort_same]; simpa [retried] using h.1)]
      cases p <;> simp [State.endSilent, State.raiseRx, State.modRx, State.modPort, State.frameDone, raiseAll, retried]
    · rw [hdefer hl h0 (.inr (by rw [h.1]; decide)), after defer ⟨rfl, rfl⟩]
    · rw [hfail hl htr]
      obtain ⟨ks, hport⟩ := (s.elapse dt).failed_port p x 3 n [.noReply, .retryExhausted]
      have hport' : exhausted.port p = _ := hport
      rw [State.elapse_port] at hport'
      refine (exec_frameEnd_after h (State.failed_clock ..) ?_ ?_ ?_ ?_).symm <;> rw [hport']
      exact ⟨rfl, rfl⟩

end Sys2Proof.Machine
end

section
/-! PROOF. Failures, abandon marks, and the fence that a freed slot may end (O43 to O45). -/

namespace Sys2Proof.Machine

/-! ### Failures (R70, R71, R114, R117) -/

/-- R117: a defer limit that is exceeded. -/
theorem exec_deferExhausted {s : State} {dt g start limit : Nat} {p : Port} {x : Slot}
    (ht : (s.port p).tx.state = .defer g start limit) (hp : (s.port p).tx.pos = some x) (hm : x.marked = false)
    (h0 : limit ≠ 0) (hl : limit < (s.clock + dt) / 1000 - start) :
    exec (.deferExhausted dt p) s = .next (((s.elapse dt).raiseTx p .deferExhausted).endFailed p .deferExhausted) := by
  have hpos : ((s.elapse dt).port p).tx.pos = some x := by rw [State.elapse_port]; exact hp
  refine congrArg Host.Outcome.next ?_
  unfold State.exhaustDefer
  rw [State.elapse_port, ht]
  exact if_pos ⟨h0, hl, (State.markedAt_pos hpos).trans hm⟩

/-- What vacating a position leaves, beyond the counters, of the queues and positions. -/
theorem State.ended_dataAt {s : State} {p : Port} {d : DataSlot} (hp : (s.port p).tx.pos = some (.data d))
    (cs : List TxCounter) (r : Port) :
    s.dataAt r = (s.modPort p fun y => { y with tx := y.tx.ended cs }).dataAt r + if r = p then 1 else 0 := by
  have hsame : (s.modPort p fun y => { y with tx := y.tx.ended cs }).dataAt r = (s.vacate p).dataAt r := by
    cases p <;> cases r <;> rfl
  have h := s.countAt_vacate p Slot.isData r
  rw [hp] at h
  rw [hsame, State.dataAt_eq, h]
  rfl

theorem State.slotFreed_noFence {s : State} (h : s.fence = none) (x : Slot) : s.slotFreed x = s := by
  unfold State.slotFreed
  rw [h]

/-- A failure while no fence is pending, by what a notice needs. -/
theorem State.failed_data {s : State} {p : Port} {d : DataSlot} (hp : (s.port p).tx.pos = some (.data d)) (reason : Byte)
    (attempts : Nat) (cs : List TxCounter) :
    let limitHere := (s.port d.ingress).inForce.queueLimit + (if d.ingress = p then 1 else 0)
    (d.Noticed → s.dataAt d.ingress < limitHere →
      s.failed p (.data d) reason attempts cs =
        (s.modPort p fun y => { y with tx := y.tx.ended (cs ++ [.noticesMade]) }).modPort d.ingress fun y =>
          { y with normal := y.normal ++ [s.noticeOf d reason attempts] }) ∧
    (d.Noticed → limitHere ≤ s.dataAt d.ingress → s.fence = none →
      s.failed p (.data d) reason attempts cs =
        s.modPort p fun y => { y with tx := y.tx.ended (cs ++ [.noticesDropped]) }) ∧
    (¬d.Noticed → s.fence = none →
      s.failed p (.data d) reason attempts cs = s.modPort p fun y => { y with tx := y.tx.ended cs }) := by
  intro limitHere
  have hcount := State.ended_dataAt hp (cs ++ [.noticesMade]) d.ingress
  have hfreed : s.fence = none → ∀ ks, s.ended p (.data d) ks = s.modPort p fun y => { y with tx := y.tx.ended ks } :=
    fun hf ks => State.slotFreed_noFence ((State.modPort_fence ..).trans hf) _
  have hlimit : limitHere = (s.port d.ingress).inForce.queueLimit + (if d.ingress = p then 1 else 0) := rfl
  unfold State.failed
  refine ⟨fun hn hl => ?_, fun hn hl hf => ?_, fun hn hf => ?_⟩
  · dsimp only
    rw [if_pos hn, if_pos (by omega)]
  · dsimp only
    rw [if_pos hn, if_neg (by omega)]
    exact hfreed hf _
  · dsimp only
    rw [if_neg hn]
    exact hfreed hf _

/-- R114: a head that is too old. -/
theorem State.isAged_data {s : State} {p : Port} {d : DataSlot} (h0 : (s.port p).params.ageLimit ≠ 0)
    (hl : (s.port p).params.ageLimit < s.now - d.arrival) : s.isAged p (.data d) = true := by
  simp [State.isAged, h0, hl]

/-- Settles O43: both reasons fail the frame in the position, and a failure is a notice or a freeing. -/
theorem failedFrameMakesANotice : Obligations.FailedFrameMakesANotice := by
  refine ⟨fun dt p g start limit x s ht hp hm htr h0 hl => ?deferred,
    fun dt p d urgent normal s ht hr hq h0 hl => ?aged, fun p d reason attempts cs s hp => ?notice⟩
  case deferred =>
    rw [exec_deferExhausted ht hp hm h0 hl]
    refine congrArg Host.Outcome.next (State.endFailed_failed .deferExhausted (x := x) ?_ htr ?_ ?_)
    · rw [State.raiseTx_tx, State.elapse_port]
      exact hp
    · rw [State.raiseTx_tx, State.elapse_port]
    · cases p <;> rfl
  case aged =>
    have hhead := PortState.head_of hq
    have haged : (s.elapse dt).isAged p (.data d) = true :=
      State.isAged_data (by rw [State.elapse_port]; exact h0) (by rw [State.elapse_port]; exact hl)
    refine congrArg Host.Outcome.next ((State.select_head (s := s.elapse dt) (by rw [State.elapse_port]; exact ht)
      (by rw [State.elapse_port]; exact hr) (by rw [State.elapse_port]; exact hhead)).trans ?_)
    rw [if_pos haged]
    refine State.endFailed_failed .aged (x := .data d) ?_ rfl ?_ ?_ <;> cases p <;> rfl
  case notice => exact State.failed_data hp reason attempts cs

/-! ### Abandon marks (R54, R128) -/

/-- R54: a marked frame that is freed. -/
theorem State.endFenced_ended {s u : State} {p : Port} {d : DataSlot} {cs : List TxCounter}
    (hp : (s.port p).tx.pos = some (.data d))
    (hv : (s.raiseTx p .fenced).vacate p = u.modPort p fun y => { y with tx := y.tx.ended cs }) :
    s.endFenced p = u.ended p (.data d) cs :=
  State.endFreed_ended (by rw [State.raiseTx_tx]; exact hp) rfl hv

/-- Settles O44: outside a send the mark acts at once, in a send at its end. -/
theorem markedFrameEndsFenced : Obligations.MarkedFrameEndsFenced := by
  intro dt p d s hp hm
  have hmark : s.markedAt p = true := (State.markedAt_pos hp).trans hm
  have hpos : ((s.elapse dt).port p).tx.pos = some (.data d) := by rw [State.elapse_port]; exact hp
  refine ⟨fun hst => ?now, fun w start ht => ?sending⟩
  case now =>
    have hnow : (s.port p).tx.state.endsFencedNow = true := by
      rcases hst with ⟨g, st, lim, h⟩ | ⟨ends, h⟩ | ⟨ends, h⟩ | ⟨w, h⟩ <;> rw [h] <;> rfl
    rw [exec_fenced hnow hmark]
    refine congrArg Host.Outcome.next (State.endFenced_ended hpos ?_)
    cases p <;> rfl
  case sending =>
    intro stopped
    refine ⟨?_, fun ended he hc hend => ?_, fun k ended he hc hend => ?_⟩
    · refine congrArg Host.Outcome.next ?_
      unfold State.obeyMark
      rw [State.elapse_port, ht]
      exact if_neg fun h => nomatch h.1
    · subst he
      rw [exec_sendComplete ht hp hc hend]
      refine congrArg Host.Outcome.next ?_
      unfold State.sendDone
      rw [State.sentTo_eq]
      dsimp only
      rw [show (Slot.data d).marked = true from hm, if_pos rfl]
      refine State.endFenced_ended ?_ ?_
      · cases p <;> exact hp
      · cases p <;> rfl
    · subst he
      rw [exec_collision ht hp hc hend]
      refine congrArg Host.Outcome.next ?_
      unfold State.collided
      dsimp only
      rw [show (Slot.data d).marked = true from hm, if_pos rfl, if_pos rfl]
      split
      · refine State.endFenced_ended ?_ ?_
        · cases p <;> exact hp
        · cases p <;> rfl
      · refine State.endFenced_ended ?_ ?_
        · cases p <;> exact hp
        · cases p <;> rfl

/-! ### The fence that the last old slot ends (R52, R73) -/

/-- R39: the freeing of an old slot leaves one old slot fewer. -/
theorem State.ended_oldCount {s : State} {p : Port} {d : DataSlot} (hp : (s.port p).tx.pos = some (.data d))
    (hold : d.epoch ≠ s.commitCount) (cs : List TxCounter) :
    s.oldCount = (s.modPort p fun y => { y with tx := y.tx.ended cs }).oldCount + 1 := by
  have hsame : (s.modPort p fun y => { y with tx := y.tx.ended cs }).oldCount = (s.vacate p).oldCount := by
    cases p <;> rfl
  have hx : Slot.isOld s.commitCount (.data d) = true := decide_eq_true hold
  rw [hsame, State.oldCount_vacate hp, if_pos hx]

/-- The state of a fence that has ended with status OK and a discard count of 0. -/
def State.fenceOver (s : State) (f : Fence) : State :=
  let record := okRecord f.holder.tag f.holder.code (s.active.code :: (be32 s.commitCount ++ [0]))
  { s.modPort f.holder.port fun y =>
      { y with normal := y.normal ++ [responseSlot f.holder y.inForce.own record .none] } with
    fence := none
    managers := managersAnswered s.managers f.holder f.holder.tag record }

/-- R52, R73: the freeing of an old slot while a fence is pending. -/
theorem State.ended_old {s : State} {p : Port} {d : DataSlot} {f : Fence} (hp : (s.port p).tx.pos = some (.data d))
    (hf : s.fence = some f) (hold : d.epoch ≠ s.commitCount) (cs : List TxCounter) :
    let freed := s.modPort p fun y => { y with tx := y.tx.ended cs }
    (s.oldCount = 1 → s.ended p (.data d) cs = freed.fenceOver f) ∧
      (1 < s.oldCount → s.ended p (.data d) cs = freed) := by
  intro freed
  have hcount : s.oldCount = freed.oldCount + 1 := State.ended_oldCount hp hold cs
  have hff : freed.fence = some f := (State.modPort_fence ..).trans hf
  have hfc : d.epoch ≠ freed.commitCount := fun h => hold (h.trans (State.modPort_commitCount ..))
  have hfreed : s.ended p (.data d) cs = if d.epoch ≠ freed.commitCount ∧ freed.oldCount = 0 then freed.fenceOver f
      else freed := by
    unfold State.ended State.slotFreed
    rw [hff]
    rfl
  rw [hfreed]
  exact ⟨fun h => if_pos ⟨hfc, by omega⟩, fun h => if_neg fun h' => by omega⟩

/-- Settles O45: the freed slot was one of the old set, so the last one ends the fence; a broadcast sent to its end is
such a freeing. -/
theorem lastOldSlotEndsTheFence : Obligations.LastOldSlotEndsTheFence := by
  intro p d f tag args s hp hf hold hpayload record fenceEnded
  have ht := MgmtSlot.tag_eq hpayload
  have hc := MgmtSlot.code_eq hpayload
  have hover : ∀ t : State, t.active = s.active → t.commitCount = s.commitCount → t.managers = s.managers →
      t.fenceOver f = fenceEnded t := fun t h1 h2 h3 => by
    unfold State.fenceOver
    rw [ht, hc, h1, h2, h3]
  refine ⟨fun cs => ?_, fun dt w start hst hm hclash hd => ?_⟩
  · obtain ⟨hlast, hmore⟩ := State.ended_old hp hf hold cs
    exact ⟨fun h => (hlast h).trans (hover _ (State.modPort_active ..) (State.modPort_commitCount ..)
      (State.modPort_managers ..)), hmore⟩
  · intro ended freed hend
    rw [exec_sendComplete hst hp hclash hend,
      State.sendDone_broadcast (x := .data d) (by rw [State.elapse_port]; exact hp) hm hd rfl]
    have hsent : (((s.elapse dt).sentTo p (.data d) ended).port p).tx.pos = some (.data d) := by cases p <;> exact hp
    have hcommit : ((s.elapse dt).sentTo p (.data d) ended).commitCount = s.commitCount := by cases p <;> rfl
    have holds : ((s.elapse dt).sentTo p (.data d) ended).oldCount = s.oldCount := by cases p <;> rfl
    have hfence : ((s.elapse dt).sentTo p (.data d) ended).fence = some f := by cases p <;> exact hf
    obtain ⟨hlast, hmore⟩ := State.ended_old hsent hfence (fun h => hold (h.trans hcommit)) [.broadcastSent]
    have hfreed : (((s.elapse dt).sentTo p (.data d) ended).modPort p fun y =>
        { y with tx := y.tx.ended [.broadcastSent] }) = freed := by cases p <;> rfl
    rw [hfreed, holds] at hlast hmore
    refine ⟨fun h => congrArg _ ((hlast h).trans (hover _ ?_ ?_ ?_)), fun h => congrArg _ (hmore h)⟩ <;>
      cases p <;> rfl

end Sys2Proof.Machine
end

section
/-! PROOF. Refills, lapses and fence timeouts; the assembly of what is read, and the replies (O31, O37, O46, O47). -/

namespace Sys2Proof.Machine

/-! ### Meters and leases (R28, R44) -/

/-- Settles O47: each timer acts once its moment has come. -/
theorem metersRefillAndLeasesLapse : Obligations.MetersRefillAndLeasesLapse := by
  refine ⟨fun dt i s h => congrArg Host.Outcome.next (if_pos h), fun dt d s hd h => congrArg Host.Outcome.next ?_⟩
  have hd' : (s.elapse dt).session = some d := hd
  have h' : d.deadline ≤ (s.elapse dt).now := h
  unfold State.lapse
  rw [hd']
  dsimp only
  rw [if_pos h']
  rfl

/-! ### The fence timeout (R53) -/

/-- R53: what the timeout of a fence does to a port. -/
def PortState.timedOut (c : Count) (x : PortState) : PortState :=
  { x with
    urgent := x.urgent.filter fun y => !y.isOld c
    normal := x.normal.filter fun y => !y.isOld c
    tx := { x.tx with
      pos := x.tx.pos.map (Slot.markOld c)
      counters := raiseAt x.tx.counters TxCounter.fenced.index ((x.urgent ++ x.normal).filter (Slot.isOld c)).length } }

theorem State.flushOld_eq (s : State) (p : Port) : s.flushOld p = s.modPort p (PortState.timedOut s.commitCount) := by
  unfold State.flushOld State.oldQueued PortState.timedOut
  rw [List.countP_eq_length_filter]
  cases p <;> rfl

/-- Settles O46: both ports are flushed and marked, and the fence ends with their number. -/
theorem fenceTimesOut : Obligations.FenceTimesOut := by
  intro dt f tag args s hf hdue hpayload old record flush
  have ht := MgmtSlot.tag_eq hpayload
  have hc := MgmtSlot.code_eq hpayload
  have hold : old = Slot.isOld s.commitCount := by
    funext x
    cases x <;> rfl
  have hflush : flush = PortState.timedOut s.commitCount := by
    funext x
    simp only [flush, hold, PortState.timedOut]
    cases x.tx.pos with
    | none => rfl
    | some y => cases y <;> rfl
  have hcount : (s.elapse dt).oldCount = ((s.port .A).slots.filter old).length + ((s.port .B).slots.filter old).length := by
    rw [hold, ← List.countP_eq_length_filter, ← List.countP_eq_length_filter]
    rfl
  have hrecord : ∀ n, n = ((s.port .A).slots.filter old).length + ((s.port .B).slots.filter old).length →
      responseRecord f.holder.tag f.holder.code .fenceTimeout
        (s.active.code :: (be32 s.commitCount ++ [BitVec.ofNat 8 n])) = record := by
    rintro n rfl
    rw [ht, hc]
    rfl
  have hf' : (s.elapse dt).fence = some f := hf
  have hdue' : f.deadline ≤ (s.elapse dt).now := hdue
  refine congrArg Host.Outcome.next ?_
  unfold State.timeOutFence
  rw [hf']
  dsimp only
  rw [if_pos hdue', State.flushOld_eq, State.flushOld_eq, State.endFence_eq]
  have hresult : ((((s.elapse dt).modPort .A (PortState.timedOut (s.elapse dt).commitCount)).modPort .B
      (PortState.timedOut ((s.elapse dt).modPort .A
        (PortState.timedOut (s.elapse dt).commitCount)).commitCount)).raiseAgent .fenceTimeouts).commitResult
          (s.elapse dt).oldCount = s.active.code :: (be32 s.commitCount ++ [BitVec.ofNat 8 (s.elapse dt).oldCount]) := rfl
  rw [hresult, hrecord _ hcount, hflush, ht]
  cases f.holder.port <;> rfl

/-! ### Replies (R105 to R108) -/

/-- A port whose transmit path does not send drives the reply it is sending. -/
theorem State.driven_replying {s : State} {p : Port} {r : Reply} {start : Nat}
    (hr : (s.port p).rx.state = .replying r start) (ht : (s.port p).tx.state.isSending = false) :
    s.driven p = r.frame.onLine ∧ s.driveStart p = some start := by
  unfold State.driven State.driveStart
  rw [hr]
  cases hst : (s.port p).tx.state with
  | sending w start' => rw [hst] at ht; cases ht
  | _ => exact ⟨rfl, rfl⟩

theorem State.elapse_idleReached_false (s : State) (dt bits : Nat) (p : Port)
    (h : s.clock + dt - s.lineEnd p < bits * s.bitTime p) : (s.elapse dt).idleReached p bits = false := by
  rw [← Bool.not_eq_true, s.elapse_idleReached]
  exact Nat.not_le.mpr h

/-- R98: whether a start bit falls within the reply wait. -/
def TxState.waits (t : TxState) (idle bit : Nat) : Bool :=
  match t with
  | .awaitReply w => decide (idle ≤ w * bit)
  | _ => false

theorem State.withinWait_eq (s : State) (p : Port) :
    s.withinWait p = (s.port p).tx.state.waits (s.idleTime p) (s.bitTime p) := by
  unfold State.withinWait TxState.waits
  cases (s.port p).tx.state <;> rfl

/-- R95: the receive path of a frame that begins. -/
def RxPath.begun (x : RxPath) (inWait : Bool) : RxPath :=
  { x with state := .receiving, buffer := [], count := 0, framingFault := false, inWait, holdOff := false }

theorem State.withinWait_elapse (s : State) (dt : Nat) (p : Port) :
    (s.elapse dt).withinWait p = (s.port p).tx.state.waits (s.clock + dt - s.lineEnd p) (s.bitTime p) := by
  rw [State.withinWait_eq, State.elapse_port, State.elapse_bitTime, State.idleTime, State.elapse_lineEnd]
  rfl

/-- R107: a reply that is abandoned to a frame that begins. -/
theorem State.abandonReply_eq (s : State) (dt : Nat) (p : Port) :
    (s.elapse dt).abandonReply p = (s.elapse dt).modPort p fun x =>
      { x with
        rx := { x.rx.begun (x.tx.state.waits (s.clock + dt - s.lineEnd p) (s.bitTime p)) with
          counters := raiseAll RxCounter.index [.replyLost] x.rx.counters } } := by
  have hwait : ((s.elapse dt).raiseRx p .replyLost).withinWait p =
      (s.port p).tx.state.waits (s.clock + dt - s.lineEnd p) (s.bitTime p) := by
    rw [← s.withinWait_elapse dt p]
    cases p <;> rfl
  unfold State.abandonReply State.beginFrame
  rw [hwait]
  cases p <;> rfl

/-- Settles O37: a reply starts at its gap, is counted when its last byte is out, and is lost to a collision or to a
start bit before the gap. -/
theorem repliesAreSentOnceOrLost : Obligations.RepliesAreSentOnceOrLost := by
  intro dt p r s idle
  refine ⟨fun hr hi => ?starts, fun start hr hc hend => ?sent, fun start k hr hc => ⟨?waits, fun hend => ?lost⟩,
    fun hr hi => ?abandoned⟩
  case starts =>
    refine ⟨_, congrArg Host.Outcome.next ?_, rfl, fun ht => ?_⟩
    · unfold State.startReply
      rw [State.elapse_port, hr]
      exact if_pos ((s.elapse_idleReached dt Config.replyGap p).mpr hi)
    · generalize hu : ((s.elapse dt).modPort p fun x =>
        { x with clash := none, rx := { x.rx with state := .replying r (s.clock + dt) } }) = u
      have hport : u.port p =
          { s.port p with clash := none, rx := { (s.port p).rx with state := .replying r (s.clock + dt) } } := by
        rw [← hu, State.port_modPort_same, State.elapse_port]
      obtain ⟨hdriven, hstart⟩ := State.driven_replying (s := u) (p := p) (r := r) (start := s.clock + dt)
        (by rw [hport]) (by rw [hport]; exact ht)
      have hclock : u.clock = s.clock + dt + 0 := by rw [← hu]; exact State.modPort_clock ..
      obtain ⟨hbits, -⟩ := State.bit_driven (d := 0) hstart (by rw [hport]) hclock
      rw [Nat.zero_div, Nat.zero_div] at hbits
      obtain ⟨hidle, htxd⟩ := hbits r.dst (by rw [hdriven]; rfl)
      exact ⟨hdriven, htxd, hidle⟩
  case sent =>
    refine congrArg Host.Outcome.next ?_
    unfold State.completeReply
    rw [State.elapse_port, hr]
    refine (if_pos ⟨hc, hend⟩).trans ?_
    cases r.type <;> cases p <;> rfl
  case waits =>
    refine congrArg Host.Outcome.next ?_
    unfold State.completeReply
    rw [State.elapse_port, hr]
    exact if_neg fun h => by cases hc.symm.trans h.1
  case lost =>
    refine congrArg Host.Outcome.next ?_
    unfold State.collideReply
    rw [State.elapse_port, hr]
    refine (if_pos ⟨hc, hend⟩).trans ?_
    cases p <;> rfl
  case abandoned =>
    refine congrArg Host.Outcome.next ?_
    unfold State.startBitInOwe
    rw [State.elapse_port, hr]
    dsimp only
    rw [s.elapse_idleReached_false dt Config.replyGap p hi, if_neg Bool.false_ne_true, State.abandonReply_eq]
    cases p <;> rfl

/-! ### Assembly (R80, R81, R95) -/

/-- What an activity reads: its bytes, and whether a stop bit was missing. -/
def bytesRead : Activity → List Byte
  | .byte v _ => [v]
  | .noise _ => []

def stopMissing : Activity → Bool
  | .byte _ ok => !ok
  | .noise _ => false

theorem RxPath.store_eq (x : RxPath) (act : Activity) :
    x.store act =
      { x with
        buffer := if x.count < 247 then x.buffer ++ bytesRead act else x.buffer
        count := x.count + (bytesRead act).length
        framingFault := x.framingFault || stopMissing act } := by
  cases act with
  | byte v ok => rfl
  | noise n => simp [RxPath.store, bytesRead, stopMissing]

theorem exec_byteReceived {dt : Nat} {p : Port} {act : Activity} {s : State} (h : 1 ≤ activityBits act) :
    exec (.byteReceived dt p act) s = .next ((s.elapse dt).receiveActivity p act) :=
  congrArg Host.Outcome.next (if_neg (Nat.ne_of_gt h))

/-- R81, R86: what is another station's, while the port drives: not the byte being sent, in step with it. -/
theorem State.readsItself_iff (s : State) (p : Port) (start : Nat) (act : Activity) :
    s.readsItself p start act = true ↔ (s.clock - start) % (10 * s.bitTime p) = 0 ∧
      ∃ v, act = .byte v true ∧ (s.driven p)[(s.clock - start) / (10 * s.bitTime p)]? = some v := by
  unfold State.readsItself
  cases act with
  | noise n => simp
  | byte v ok =>
    have hk : s.byteNow p start - 1 = (s.clock - start) / (10 * s.bitTime p) := rfl
    simp only [hk, Config.bitsPerByte, Bool.and_eq_true, beq_iff_eq]
    constructor
    · rintro ⟨⟨rfl, h0⟩, hv⟩
      exact ⟨of_decide_eq_true h0, v, rfl, hv⟩
    · rintro ⟨h0, v', hact, hv⟩
      cases hact
      exact ⟨⟨rfl, decide_eq_true h0⟩, hv⟩

/-- R95, R107: an activity that begins a frame, a reply having been abandoned to it or not. -/
theorem State.begins_eq (s : State) (dt : Nat) (p : Port) (act : Activity) (lost : Bool) :
    ((if lost then (s.elapse dt).abandonReply p else (s.elapse dt).beginFrame p).modRx p fun x => x.store act).activity p
        (activityBits act) =
      (s.elapse dt).modPort p fun x =>
        { x with
          idleSince := max x.idleSince (s.clock + dt + activityBits act * s.bitTime p)
          rx := { x.rx with
            state := .receiving
            buffer := bytesRead act
            count := (bytesRead act).length
            framingFault := stopMissing act
            inWait := x.tx.state.waits (s.clock + dt - s.lineEnd p) (s.bitTime p)
            holdOff := false
            counters := raiseAll RxCounter.index (if lost then [.replyLost] else []) x.rx.counters } } := by
  simp only [RxPath.store_eq]
  cases lost with
  | true =>
    rw [if_pos rfl, State.abandonReply_eq]
    cases act <;> cases p <;> rfl
  | false =>
    rw [if_neg Bool.false_ne_true, State.beginFrame, State.withinWait_elapse]
    cases act <;> cases p <;> rfl

/-- Settles O31: while the port does not drive, the receive path's state decides what an activity is; while it drives,
the comparison does. -/
theorem bytesAreAssembled : Obligations.BytesAreAssembled := by
  intro dt p act s bits read bad busyUntil idle hbits
  have hb : activityBits act = bits := by cases act <;> rfl
  have hread : bytesRead act = read := by cases act <;> rfl
  have hbad : stopMissing act = bad := by cases act <;> rfl
  have hexec : exec (.byteReceived dt p act) s = .next ((s.elapse dt).receiveActivity p act) :=
    exec_byteReceived (by rw [hb]; exact hbits)
  have hoff : s.driverEnable p = false → (s.elapse dt).driveStart p = none ∧ s.lineEnd p = (s.port p).idleSince :=
    fun h => ⟨by rw [State.elapse_driveStart]; exact State.driveStart_none.mpr h, State.lineEnd_off h⟩
  rw [hexec]
  refine ⟨fun lost hd hst => ?begins, fun hd hr hi => ?continues, fun hd hr hh hi => ?held, fun start hdrive => ?driving⟩
  case begins =>
    obtain ⟨hnone, hline⟩ := hoff hd
    refine congrArg Host.Outcome.next ?_
    unfold State.receiveActivity
    rw [hnone]
    refine Eq.trans ?_ ((s.begins_eq dt p act lost).trans (State.modPort_congr ?_))
    rotate_left
    · rw [hline, hb, hread, hbad, State.elapse_port]
      cases (s.port p).tx.state <;> rfl
    cases lost with
    | true =>
      obtain ⟨⟨r, hr⟩, hi⟩ := hst
      rw [State.elapse_port, hr]
      dsimp only
      rw [s.elapse_idleReached_false dt _ p (by rw [hline]; exact hi), if_neg Bool.false_ne_true]
      rfl
    | false =>
      obtain ⟨hr, hh⟩ := hst
      rw [State.elapse_port, hr]
      dsimp only
      rw [if_neg, if_neg Bool.false_ne_true]
      rintro ⟨hh', hi⟩
      rcases hh with hh | hh
      · cases hh'.symm.trans hh
      · have hreach := (s.elapse_idleReached dt Config.frameEndGap p).mpr (by rw [hline]; exact hh)
        cases hreach.symm.trans hi
  case continues =>
    obtain ⟨hnone, hline⟩ := hoff hd
    refine congrArg Host.Outcome.next ?_
    unfold State.receiveActivity
    rw [hnone, State.elapse_port, hr]
    dsimp only
    have hin : (s.elapse dt).frameContinues p = true := by
      rw [State.frameContinues, decide_eq_true_eq, State.idleTime, State.elapse_lineEnd, hline, State.elapse_bitTime]
      exact hi
    rw [if_pos hin]
    simp only [RxPath.store_eq, hb, hread, hbad]
    cases p <;> rfl
  case held =>
    obtain ⟨hnone, hline⟩ := hoff hd
    refine congrArg Host.Outcome.next ?_
    unfold State.receiveActivity
    rw [hnone, State.elapse_port, hr]
    dsimp only
    rw [if_pos ⟨hh, s.elapse_idleReached_false dt _ p (by rw [hline]; exact hi)⟩, hb]
    cases p <;> rfl
  case driving =>
    intro byteTime passed k own sent driving
    have hstart : (s.elapse dt).driveStart p = some start := by
      rw [State.elapse_driveStart]
      rcases hdrive with ⟨w, ht⟩ | ⟨ht, r, hr⟩
      · exact State.driveStart_sending ht
      · exact (State.driven_replying hr ht).2
    have hown : (s.elapse dt).readsItself p start act = true ↔ own := by
      rw [State.readsItself_iff, State.elapse_bitTime, State.elapse_driven]
      rfl
    have hdriving : (s.elapse dt).clock < (s.elapse dt).driveEnd p start ↔ driving := by
      have hsent : (s.elapse dt).driveEnd p start = start + sent * byteTime := by
        rw [State.elapse_driveEnd, State.driveEnd, State.byteEnd, Nat.mul_assoc]
        simp only [sent]
        cases (s.port p).clash <;> rfl
      rw [hsent]
      rfl
    have hcases := (s.elapse dt).readBack_cases p start act
    have hread' : (s.elapse dt).receiveActivity p act = (s.elapse dt).readBack p start act := by
      unfold State.receiveActivity
      rw [hstart]
    rw [hread']
    refine ⟨fun hd ho => ?_, fun ho => ?_⟩ <;> refine congrArg Host.Outcome.next ?_
    · rcases hcases with ⟨h | h, -⟩ | ⟨-, -, he⟩
      · exact absurd (hdriving.mpr hd) (Nat.not_lt.mpr h)
      · exact absurd (hown.mp h) ho
      · rw [he]
        refine State.modPort_congr ?_
        rw [hb, State.elapse_bitTime, State.elapse_port]
        cases (s.port p).clash <;> rfl
    · rcases hcases with ⟨-, he⟩ | ⟨h1, h2, -⟩
      · exact he
      · rcases ho with ho | ho
        · cases h2.symm.trans (hown.mpr ho)
        · exact absurd (hdriving.mp h1) ho

end Sys2Proof.Machine
end

section
/-! PROOF. The restarts that follow a response (R74, R110, R130, R132, R145 to R147, R170; O48, O49). -/

namespace Sys2Proof.Machine

/-! ### The state in which the trigger of a response acts (R127, R145) -/

/-- The state of an ended response whose trigger lowers the restart-pending mark. -/
def State.triggerReady (s : State) (dt : Nat) (p : Port) (rx : RxPath) (i : Nat) (k : Option Nat)
    (tx : List TxCounter) : State :=
  { s.responseEnded dt p rx i k tx with restartPending := s.restartPending - 1 }

section
variable (s : State) (dt : Nat) (p : Port) (rx : RxPath) (i : Nat) (k : Option Nat) (tx : List TxCounter)

theorem State.triggerReady_same :
    (s.triggerReady dt p rx i k tx).port p =
      { s.port p with rx := rx, tx := (s.port p).tx.ended tx, idleSince := i, clash := k } := by
  cases p <;> rfl

theorem State.triggerReady_other {q : Port} (h : q ≠ p) : (s.triggerReady dt p rx i k tx).port q = s.port q := by
  cases p <;> cases q <;> first | rfl | exact absurd rfl h

/-- The slots that stand while the trigger acts: the response has been freed. -/
theorem State.triggerReady_slots (q : Port) :
    ((s.triggerReady dt p rx i k tx).port q).slots =
      if q = p then (s.port q).urgent ++ (s.port q).normal else (s.port q).slots := by
  by_cases h : q = p
  · subst h
    rw [if_pos rfl, State.triggerReady_same]
    exact List.append_nil _
  · rw [if_neg h, State.triggerReady_other _ _ _ _ _ _ _ h]

theorem State.triggerReady_counters (q : Port) :
    ((s.triggerReady dt p rx i k tx).port q).tx.counters =
      raiseAll TxCounter.index (if q = p then tx else []) (s.port q).tx.counters := by
  by_cases h : q = p
  · subst h
    rw [if_pos rfl, State.triggerReady_same]
    rfl
  · rw [if_neg h, State.triggerReady_other _ _ _ _ _ _ _ h]
    rfl

theorem State.triggerReady_rx (q : Port) :
    ((s.triggerReady dt p rx i k tx).port q).rx = if q = p then rx else (s.port q).rx := by
  by_cases h : q = p
  · subst h
    rw [if_pos rfl, State.triggerReady_same]
  · rw [if_neg h, State.triggerReady_other _ _ _ _ _ _ _ h]

theorem State.triggerReady_settings (q : Port) :
    ((s.triggerReady dt p rx i k tx).port q).staged = (s.port q).staged ∧
      ((s.triggerReady dt p rx i k tx).port q).params = (s.port q).params ∧
      ((s.triggerReady dt p rx i k tx).port q).inForce = (s.port q).inForce := by
  cases p <;> cases q <;> exact ⟨rfl, rfl, rfl⟩

theorem State.triggerReady_rest :
    let u := s.triggerReady dt p rx i k tx
    u.clock = s.clock + dt ∧ u.pins = s.pins ∧ u.bankX = s.bankX ∧ u.bankY = s.bankY ∧ u.active = s.active ∧
      u.commitCount = s.commitCount ∧ u.session = s.session ∧ u.fence = s.fence ∧ u.meters = s.meters ∧
      u.agentQueue = s.agentQueue ∧ u.managers = s.managers ∧ u.restartPending = s.restartPending - 1 ∧
      u.agentCounters = s.agentCounters ∧ u.pending = s.pending := by
  cases p <;> exact ⟨rfl, rfl, rfl, rfl, rfl, rfl, rfl, rfl, rfl, rfl, rfl, rfl, rfl, rfl⟩

end

/-! ### The soft restart (R170) -/

/-- R74, R110, R132: a port that has been flushed and reset, by the number of slots flushed. -/
def PortState.resetWith (x : PortState) (lineEnd flushed : Nat) : PortState :=
  { x.restarted lineEnd with tx := { powerOnTx with counters := raiseAt x.tx.counters TxCounter.flushed.index flushed } }

theorem State.softRestart_reset (s : State) (q : Port) :
    s.softRestart.port q = (s.port q).resetWith (s.cutOff q) ((s.port q).slots.length + s.requestsOf q) := by
  cases q <;> rfl

theorem State.restartedAt_reset (s : State) (q : Port) :
    (s.restartedAt q).port q = (s.port q).resetWith (s.cutOff q) ((s.port q).slots.length + s.requestsOf q) := by
  cases q <;> rfl

/-- R64, R74: nothing stands in the store after a soft restart. -/
theorem State.softRestart_freeCount (s : State) : s.softRestart.freeCount = 32 := by
  have h : ∀ q r, (s.softRestart.port r).slots.countP q = 0 := fun q r => s.countAt_softRestart q r
  unfold State.freeCount
  rw [State.dataCount_eq, State.mgmtCount_eq]
  simp only [State.countSlots, State.countAt, h]
  rfl

theorem State.handleFrame_idle {s : State} {p : Port} (h : (s.port p).rx.state = .idle) (v : Screened) :
    s.handleFrame p v = s := by
  unfold State.handleFrame
  rw [h]
  exact if_neg (by decide)

/-- Settles O49: the trigger of a response that has ended restarts the part; a frame that ended with it finds its receive
path IDLE. -/
theorem softRestartFollowsItsResponse : Obligations.SoftRestartFollowsItsResponse := by
  intro c p m rx tx s hp htr hends
  obtain ⟨r, i, k, hcounters, -, hexec⟩ := exec_responseEnds hp hends
  generalize hu : s.triggerReady (dtOf c) p r i k tx = u at *
  have hrun : (s.responseEnded (dtOf c) p r i k tx).runTrigger m.trigger = u.softRestart := by
    rw [htr, ← hu]
    cases p <;> rfl
  have hexec' : exec c s = .next u.softRestart := by
    rw [hrun] at hexec
    rcases hexec with ⟨he, -⟩ | ⟨he, -⟩
    · exact he
    · rw [he, State.handleFrame_idle]
      rw [State.softRestart_reset]
      rfl
  obtain ⟨hclock, hpins, hX, hY, hactive, hcount, -, -, hmeters, hqueue, hmanagers, -, hagent, hpending⟩ :
      _ ∧ _ ∧ _ ∧ _ ∧ _ ∧ _ ∧ _ ∧ _ ∧ _ ∧ _ ∧ _ ∧ _ ∧ _ ∧ _ := hu ▸ s.triggerReady_rest (dtOf c) p r i k tx
  refine ⟨u.softRestart, hexec', fun q => ?ports, u.softRestart_freeCount, rfl, rfl, rfl, rfl, fun j => ?meters,
    ?managers, ?agent, hX, hY, hactive, hcount, hclock, hpins, hpending⟩
  case ports =>
    have hslots := s.triggerReady_slots (dtOf c) p r i k tx q
    have htx := s.triggerReady_counters (dtOf c) p r i k tx q
    have hrx := s.triggerReady_rx (dtOf c) p r i k tx q
    obtain ⟨hstaged, hparams, -⟩ := s.triggerReady_settings (dtOf c) p r i k tx q
    rw [hu] at hslots htx hrx hstaged hparams
    have hnumber : (u.port q).slots.length + u.requestsOf q = (s.port q).urgent.length + (s.port q).normal.length +
        (if q = p then 0 else (s.port q).tx.pos.toList.length) + (s.agentQueue.filter fun r => r.port == q).length := by
      have hreq : u.requestsOf q = (s.agentQueue.filter fun r => r.port == q).length := by
        rw [State.requestsOf, hqueue, List.countP_eq_length_filter]
      rw [hslots, hreq]
      split <;> simp only [PortState.slots, List.length_append, Nat.add_zero]
    rw [u.softRestart_reset q, hnumber]
    refine ⟨rfl, rfl, rfl, rfl, rfl, rfl, rfl, rfl, fun j => ⟨?_, ?_⟩, hstaged, hstaged, hparams, rfl, ?_, ?_⟩
    · exact Vector.getElem_replicate ..
    · exact Vector.getElem_replicate ..
    · refine (congrArg RxPath.counters hrx).trans ?_
      split
      · rename_i h
        rw [h]
        exact hcounters
      · rfl
    · rw [← htx]
      rfl
  case meters =>
    have hnow : u.now = (s.clock + dtOf c) / 1000 := congrArg (· / 1000) hclock
    have hmap : u.softRestart.meters = u.meters.map (Meter.refilledAt u.now) := rfl
    rw [hmap, hnow, hmeters]
    exact Vector.getElem_map ..
  case managers =>
    rw [← hmanagers]
    rfl
  case agent =>
    rw [← hagent]
    rfl

/-! ### The port restart (R74, R145 to R147) and the fence it may end -/

/-- R56, R73: the flush of port `q` leaves no slot of an old set that was there. -/
def State.flushEndsFence (s : State) (q : Port) : Bool :=
  (s.port q).slots.any (Slot.isOld s.commitCount) && (s.port q.other).slots.all fun x => !Slot.isOld s.commitCount x

/-- R52: the response that a port restart sends to port `r` when it ends a fence. -/
def State.restartAnswers (s : State) (q r : Port) : List Slot :=
  match s.fence with
  | some f =>
    if s.flushEndsFence q = true ∧ f.holder.port = r then
      [responseSlot f.holder ((s.restartedAt q).port r).inForce.own
        (okRecord f.holder.tag f.holder.code (s.active.code :: (be32 s.commitCount ++ [0]))) .none]
    else []
  | none => []

theorem State.endFence_over (s : State) (f : Fence) : s.endFence f .ok 0 = s.fenceOver f := by
  rw [State.endFence_eq]
  rfl

theorem State.fenceOver_port (s : State) (f : Fence) (r : Port) :
    (s.fenceOver f).port r =
      { s.port r with
        normal := (s.port r).normal ++
          if f.holder.port = r then
            [responseSlot f.holder (s.port r).inForce.own
              (okRecord f.holder.tag f.holder.code (s.active.code :: (be32 s.commitCount ++ [0]))) .none]
          else [] } := by
  unfold State.fenceOver
  cases f.holder.port <;> cases r <;> simp [State.modPort, State.port]

/-- R39, R74: the old slots that stand after the flush of a port are those of the other. -/
theorem State.restartedAt_oldCount (s : State) (q : Port) :
    (s.restartedAt q).oldCount = 0 ↔ ((s.port q.other).slots.all fun x => !Slot.isOld s.commitCount x) = true := by
  have hcount : (s.restartedAt q).oldCount = (s.port q.other).slots.countP (Slot.isOld s.commitCount) := by
    rw [State.oldCount_eq, State.countSlots, State.countAt_restartedAt, State.countAt_restartedAt]
    have hcommit : (s.restartedAt q).commitCount = s.commitCount := by
      simp [State.restartedAt, State.raiseFlushed, State.raiseTxBy]
    rw [hcommit]
    cases q <;> simp [State.countAt, Port.other]
  rw [hcount, List.countP_eq_zero, List.all_eq_true]
  simp

/-- What a port restart is: the flush and the reset, and the end of a pending fence whose old set it leaves empty. -/
theorem State.portRestart_cases (s : State) (q : Port) :
    (∀ f, s.fence = some f → s.flushEndsFence q = true → s.portRestart q = (s.restartedAt q).fenceOver f) ∧
      (s.fence = none ∨ s.flushEndsFence q = false → s.portRestart q = s.restartedAt q) := by
  have hfence : (s.restartedAt q).fence = s.fence := by
    simp [State.restartedAt, State.raiseFlushed, State.raiseTxBy]
  have hends : s.flushEndsFence q = true ↔
      (s.port q).slots.any (Slot.isOld s.commitCount) = true ∧ (s.restartedAt q).oldCount = 0 := by
    rw [State.restartedAt_oldCount, State.flushEndsFence, Bool.and_eq_true]
  rw [State.portRestart_eq, State.reportFreed, hfence]
  refine ⟨fun f hf he => ?_, fun h => ?_⟩
  · rw [hf]
    exact (if_pos (hends.mp he)).trans (State.endFence_over ..)
  · cases hf : s.fence with
    | none => rfl
    | some f =>
      rcases h with h | h
      · cases hf.symm.trans h
      · exact if_neg fun h' => by cases h.symm.trans (hends.mpr h')

/-- What a port restart leaves of the ports, the fence and the manager table. -/
theorem State.portRestart_ends (s : State) (q : Port) :
    (∀ r, (s.portRestart q).port r =
      { (s.restartedAt q).port r with normal := ((s.restartedAt q).port r).normal ++ s.restartAnswers q r }) ∧
    (s.portRestart q).fence = (if s.flushEndsFence q then none else s.fence) ∧
    (s.portRestart q).managers =
      (match s.fence with
      | some f =>
        if s.flushEndsFence q then
          managersAnswered (clearPending (· == q) s.managers) f.holder f.holder.tag
            (okRecord f.holder.tag f.holder.code (s.active.code :: (be32 s.commitCount ++ [0])))
        else clearPending (· == q) s.managers
      | none => clearPending (· == q) s.managers) := by
  have hrest : (s.restartedAt q).fence = s.fence ∧ (s.restartedAt q).active = s.active ∧
      (s.restartedAt q).commitCount = s.commitCount := by
    simp [State.restartedAt, State.raiseFlushed, State.raiseTxBy]
  obtain ⟨hfence, hactive, hcommit⟩ := hrest
  obtain ⟨hover, hkeep⟩ := s.portRestart_cases q
  unfold State.restartAnswers
  cases hf : s.fence with
  | none =>
    rw [hkeep (.inl hf), hfence, hf]
    exact ⟨fun r => by rw [List.append_nil], (ite_self none).symm, rfl⟩
  | some f =>
    cases he : s.flushEndsFence q with
    | false =>
      rw [hkeep (.inr he), hfence, hf]
      exact ⟨fun r => by dsimp only; rw [if_neg (by simp), List.append_nil], rfl, rfl⟩
    | true =>
      rw [hover f hf he]
      refine ⟨fun r => ?_, rfl, ?_⟩
      · rw [State.fenceOver_port, hactive, hcommit]
        simp only [true_and]
      · dsimp only
        rw [if_pos rfl, ← hactive, ← hcommit]
        rfl

theorem State.portRestart_rest (s : State) (q : Port) :
    let t := s.portRestart q
    t.clock = s.clock ∧ t.pins = s.pins ∧ t.bankX = s.bankX ∧ t.bankY = s.bankY ∧ t.active = s.active ∧
      t.commitCount = s.commitCount ∧ t.session = s.session ∧ t.meters = s.meters ∧
      t.agentQueue = (s.agentQueue.filter fun m => m.port != q) ∧
      t.restartPending = s.restartPending - (s.port q).slots.countP Slot.hasTrigger ∧
      t.agentCounters = raiseAt s.agentCounters AgentCounter.portRestarts.index 1 ∧ t.pending = s.pending := by
  intro t
  have hv : (s.restartedAt q).clock = s.clock ∧ (s.restartedAt q).pins = s.pins ∧ (s.restartedAt q).bankX = s.bankX ∧
      (s.restartedAt q).bankY = s.bankY ∧ (s.restartedAt q).active = s.active ∧
      (s.restartedAt q).commitCount = s.commitCount ∧ (s.restartedAt q).session = s.session ∧
      (s.restartedAt q).meters = s.meters ∧
      (s.restartedAt q).agentQueue = (s.agentQueue.filter fun m => m.port != q) ∧
      (s.restartedAt q).restartPending = s.restartPending - (s.port q).slots.countP Slot.hasTrigger ∧
      (s.restartedAt q).agentCounters = raiseAt s.agentCounters AgentCounter.portRestarts.index 1 ∧
      (s.restartedAt q).pending = s.pending := by
    simp [State.restartedAt, State.raiseFlushed, State.raiseTxBy]
  obtain ⟨hover, hkeep⟩ := s.portRestart_cases q
  cases hf : s.fence with
  | none => rw [show t = _ from hkeep (.inl hf)]; exact hv
  | some f =>
    cases he : s.flushEndsFence q with
    | false => rw [show t = _ from hkeep (.inr he)]; exact hv
    | true =>
      rw [show t = _ from hover f hf he]
      unfold State.fenceOver
      simp only [State.modPort_clock, State.modPort_pins, State.modPort_bankX, State.modPort_bankY, State.modPort_active,
        State.modPort_commitCount, State.modPort_session, State.modPort_meters, State.modPort_agentQueue,
        State.modPort_restartPending, State.modPort_agentCounters, State.modPort_pending]
      exact hv

theorem raiseAt_zero {n : Nat} (v : Vector Count n) (i : Fin n) : raiseAt v i 0 = v := by
  refine Vector.ext fun j hj => ?_
  have hzero : ∀ c : Count, satAdd c 0 = c := fun c => by
    apply BitVec.eq_of_toNat_eq
    exact satAdd_below (Nat.le_of_lt_succ c.isLt)
  have h := getElem_raiseAt v i ⟨j, hj⟩ 0
  rw [hzero] at h
  refine h.trans ?_
  split
  · rename_i hij
    subst hij
    rfl
  · rfl

/-- Settles O48: the trigger of a response that has ended restarts the port it names; a frame that ended with it is
handled where it was, unless its own receive path was reset. -/
theorem portRestartFollowsItsResponse : Obligations.PortRestartFollowsItsResponse := by
  intro c p q m rx tx s hp htr hends flushed old fenceEnds record answers managers handled
  obtain ⟨r, i, k, hcounters, hfilter, hexec⟩ := exec_responseEnds hp hends
  generalize hu : s.triggerReady (dtOf c) p r i k tx = u
  have hrun : (s.responseEnded (dtOf c) p r i k tx).runTrigger m.trigger = u.portRestart q := by
    rw [htr, ← hu]
    cases p <;> rfl
  rw [hrun] at hexec
  -- what stands when the trigger acts
  obtain ⟨hclock, hpins, hX, hY, hactive, hcount, hsession, hfence, hmeters, hqueue, hmanagers, hmark, hagent, hpending⟩ :
      _ ∧ _ ∧ _ ∧ _ ∧ _ ∧ _ ∧ _ ∧ _ ∧ _ ∧ _ ∧ _ ∧ _ ∧ _ ∧ _ := hu ▸ s.triggerReady_rest (dtOf c) p r i k tx
  have hslots := s.triggerReady_slots (dtOf c) p r i k tx
  have htx := s.triggerReady_counters (dtOf c) p r i k tx
  have hrx := s.triggerReady_rx (dtOf c) p r i k tx
  have hsettings := s.triggerReady_settings (dtOf c) p r i k tx
  have hsender := s.triggerReady_same (dtOf c) p r i k tx
  rw [hu] at hslots htx hrx hsettings hsender
  have hflushed : (u.port q).slots = flushed := hslots q
  have hold : old = Slot.isOld s.commitCount := by
    funext x
    cases x <;> rfl
  have hstays : ((u.port q.other).slots.all fun x => !old x) = (s.port q.other).slots.all fun x => !old x := by
    rw [hslots]
    split
    · rename_i h
      rw [h, PortState.slots, List.all_append, hp]
      simp [old]
    · rfl
  have hfenceEnds : u.flushEndsFence q = fenceEnds := by
    rw [State.flushEndsFence, hcount, ← hold, hflushed, hstays]
  -- what the restart leaves
  have hreset := u.restartedAt_reset q
  have hother : ∀ r', r' ≠ q → (u.restartedAt q).port r' = u.port r' := fun r' h => by
    rw [State.restartedAt_port, if_neg h]
  have hin : ∀ r', ((u.restartedAt q).port r').inForce = if r' = q then (s.port r').staged else (s.port r').inForce := by
    intro r'
    by_cases h : r' = q
    · subst h
      rw [if_pos rfl, hreset]
      exact (hsettings r').1
    · rw [if_neg h, hother r' h, (hsettings r').2.2]
  have hanswers : ∀ r', u.restartAnswers q r' = answers r' := by
    intro r'
    unfold State.restartAnswers
    rw [hfence, hfenceEnds, hin, hactive, hcount]
    simp only [answers]
    cases s.fence with
    | none => rfl
    | some f => by_cases h : r' = q <;> simp only [h, if_true, if_false] <;> rfl
  have hclear : clearPending (· == q) u.managers = managers := by
    rw [hmanagers]
    refine List.map_congr_left fun e _ => ?_
    simp only [beq_iff_eq]
  obtain ⟨hports, htfence, htmanagers⟩ := u.portRestart_ends q
  simp only [hanswers] at hports
  obtain ⟨tclock, tpins, tX, tY, tactive, tcount, tsession, tmeters, tqueue, tmark, tagent, tpending⟩ :=
    u.portRestart_rest q
  refine ⟨u.portRestart q, fun hh => ?handled, fun hh => ?alone, ?urgent, ?normal, ?txState, ?pos, fun j => ?tables,
    ?rxState, ?buffer, ?lastSent, ?holdOff, ?clash, ?inForce, ?staged, ?params, fun r' => ?counters, ?mark, ?agent,
    ?queue, ?fence, ?managers, fun hne => ?sender, fun heq => ?bystander, tX.trans hX, tY.trans hY,
    tactive.trans hactive, tcount.trans hcount, tsession.trans hsession, tmeters.trans hmeters, tclock.trans hclock,
    tpins.trans hpins, tpending.trans hpending⟩
  case handled =>
    obtain ⟨hne, hnil, hframe⟩ := hh
    rcases hexec with ⟨-, hno⟩ | ⟨he, hr, hi, hend, -, -⟩
    · exact absurd ⟨hnil, hframe⟩ hno
    · have hv : (u.portRestart q).port p = _ := hports p
      rw [hother p hne.symm, hsender, hr, hi] at hv
      have hprx : ((u.portRestart q).port p).rx = (s.port p).rx := by rw [hv]
      refine ⟨?_, hprx⟩
      rw [he]
      refine (exec_frameEnd_after hend (tclock.trans hclock) hprx ?_ ?_ ?_).symm <;> rw [hv]
      exact ⟨rfl, rfl⟩
  case alone =>
    rcases hexec with ⟨he, -⟩ | ⟨he, -, -, -, hnil, hframe⟩
    · exact he
    · have hqp : q = p := by
        by_contra hne
        exact hh ⟨hne, hnil, hframe⟩
      rw [he, State.handleFrame_idle]
      rw [← hqp, hports, hreset]
      rfl
  case urgent | txState | pos | rxState | buffer | lastSent | holdOff | clash => rw [hports, hreset]; rfl
  case normal => rw [hports, hreset]; rfl
  case tables =>
    rw [hports, hreset]
    exact ⟨Vector.getElem_replicate .., Vector.getElem_replicate ..⟩
  case inForce => rw [hports, hreset]; exact (hsettings q).1
  case staged => rw [hports, hreset]; exact (hsettings q).1
  case params => rw [hports, hreset]; exact (hsettings q).2.1
  case counters =>
    rw [hports, ← htx]
    have hru : (u.port r').rx.counters = raiseAll RxCounter.index (if r' = p then rx else []) (s.port r').rx.counters := by
      rw [hrx]
      split
      · rename_i h
        rw [h]
        exact hcounters
      · rfl
    by_cases h : r' = q
    · subst h
      rw [if_pos rfl, hreset, hflushed, State.requestsOf, hqueue, List.countP_eq_length_filter]
      exact ⟨hru, rfl⟩
    · rw [if_neg h, hother r' h, raiseAt_zero]
      exact ⟨hru, rfl⟩
  case mark => rw [tmark, hmark, hflushed, List.countP_eq_length_filter]
  case agent => rw [tagent, hagent]; rfl
  case queue => rw [tqueue, hqueue]
  case fence => rw [htfence, hfenceEnds, hfence]
  case managers =>
    refine htmanagers.trans ?_
    rw [hfence, hfenceEnds, hactive, hcount]
    cases s.fence with
    | none => exact hclear
    | some f =>
      exact congrArg
        (fun ms => if fenceEnds then managersAnswered ms f.holder f.holder.tag (record f) else ms) hclear
  case sender =>
    have hv : (u.portRestart q).port p = _ := hports p
    rw [hother p hne.symm, hsender] at hv
    rw [hv]
    exact ⟨rfl, rfl, rfl, rfl, rfl, rfl, hfilter⟩
  case bystander =>
    subst heq
    rw [hports, hother _ (Port.other_ne q), ← hu, State.triggerReady_other _ _ _ _ _ _ _ (Port.other_ne q)]

end Sys2Proof.Machine
end
